-- ==== Sys2Proof/Word.lean ====
section
/-!
DEFINITION. The words of the block: a 16-bit register word (10_state.md section 6, every register is 16 bits wide),
a 4-bit register index and a 4-bit event code (30_encoding.md R65).
-/

namespace Sys2Proof

/-- A register word, bit 0 least significant (00_scope.md R9, 20_memory.md R54). -/
abbrev Word := BitVec 16

/-- A register index 0x0 to 0xF (20_memory.md R50). -/
abbrev RegIdx := BitVec 4

/-- A Format E event code (30_encoding.md R65, R73). -/
abbrev EventCode := BitVec 4

/-- The 12-bit ARG field of a command word (30_encoding.md R66). -/
abbrev CmdArg := BitVec 12

end Sys2Proof
end

