-- ==== Sys2Proof/Config.lean ====
section
/-!
DEFINITION. The implementation parameters of 00_scope.md R7 and 92_eei_decisions.md, and the phase tables
(10_state.md R27). They are plain data that State carries unchanged, so that a statement over every state is a
statement over every parameter (log entry 1). What the spec leaves OPEN without a default has no body here.
-/

namespace Sys2Proof

/-- A PhaseTable (10_state.md R27): `P[0..1]` is powerDelay, `D[0..5]` is motorDelay, in ticks. -/
structure PhaseTable where
  P : Vector Nat 2
  D : Vector Nat 6
deriving DecidableEq, Repr, Inhabited

/-- FORCE_POLICY (00_scope.md R7, 43_power_scheduler.md R124). -/
inductive ForcePolicy where
  | replace
  | additional
deriving DecidableEq, Repr

/-- SERVICE_ORDER (60_exceptions.md R157, R158). `fixed` is the switch FIXED(ZC, POVF, MCMP), which the spec marks
ASSUMED: it removes runs the hardware may have, so it is unsafe to rely on (log entry 15). -/
inductive ServiceOrder where
  | unconstrained
  | fixed
deriving DecidableEq, Repr

/-- The parameters a model takes as arguments (00_scope.md R7). BUS_SPLIT and PULSE_WIDTH are outside the model
(20_memory.md R54, 70_reset_and_hazards.md R190). -/
structure Params where
  /-- `W`, the width in bits of each timer counter, of the compare register and of each table entry. -/
  W : Nat
  tbl50 : PhaseTable
  tbl60 : PhaseTable
  forcePolicy : ForcePolicy
  serviceOrder : ServiceOrder
  /-- `ZC_LVL0`, the level of the zero-cross input at reset (log entry 4). -/
  zcLvl0 : Bool
deriving DecidableEq, Repr

/-- `CMP_MAX = 2^W - 1` (00_scope.md R7). -/
def Params.cmpMax (c : Params) : Nat := 2 ^ c.W - 1

/-- `FD_THRESH`, the detector threshold in detector ticks (00_scope.md R7). -/
def Config.fdThresh : Nat := 143

/-- `SHIFT_STEP`, the soft-start decrement per zero-crossing (00_scope.md R7). -/
def Config.shiftStep : Nat := 2

/-- TBL50 is OPEN: the source gives no table value (92_eei_decisions.md D4, log entry 3). -/
opaque Config.tbl50 : PhaseTable

/-- TBL60 is OPEN: the source gives no table value (92_eei_decisions.md D4, log entry 3). -/
opaque Config.tbl60 : PhaseTable

/-- ZC_LVL0 is the environment's choice (92_eei_decisions.md D29, log entry 4). -/
opaque Config.zcLvl0 : Bool

/-- The parameters State.reset starts from: the spec's defaults where it names one (W = 8, REPLACE, unconstrained:
log entry 2), the open ones free. -/
def Config.params : Params where
  W := 8
  tbl50 := Config.tbl50
  tbl60 := Config.tbl60
  forcePolicy := .replace
  serviceOrder := .unconstrained
  zcLvl0 := Config.zcLvl0

end Sys2Proof
end

