-- ==== Sys2Proof/Syntax.lean ====
section
/-!
DEFINITION. The operations of the block, one constructor per row of spec/opcode_table.json, and the raw items a run
is made of, in the three formats of 30_encoding.md R65.
-/

namespace Sys2Proof

/-- The operations: host commands (Format C), bus operations (Format B), events and services (Format E). -/
inductive Instr where
  /-- NOP, 40_command_interface.md R85. -/
  | nop
  /-- FDET, 41_frequency_detector.md R95. -/
  | fdet
  /-- ZCEN `e`, 42_zero_cross_sync.md R106. -/
  | zcen (e : Bool)
  /-- PWREN `e`, 43_power_scheduler.md R116. -/
  | pwren (e : Bool)
  /-- SETPSM `p`, 43_power_scheduler.md R117. -/
  | setpsm (p : Bool)
  /-- SSTART `m`, 45_soft_start.md R139; legal levels are 1..5. -/
  | sstart (m : BitVec 3)
  /-- ARM, 44_motor_scheduler.md R127. -/
  | arm
  /-- DISARM, 44_motor_scheduler.md R128. -/
  | disarm
  /-- MINC, 45_soft_start.md R140. -/
  | minc
  /-- MDEC, 45_soft_start.md R141. -/
  | mdec
  /-- The reserved command words with OP = 0xA, 30_encoding.md R69. -/
  | reservedOpA (arg : CmdArg)
  /-- The reserved command words with OP = 0xB, 30_encoding.md R69. -/
  | reservedOpB (arg : CmdArg)
  /-- The reserved command words with OP = 0xC, 30_encoding.md R69. -/
  | reservedOpC (arg : CmdArg)
  /-- The reserved command words with OP = 0xD, 30_encoding.md R69. -/
  | reservedOpD (arg : CmdArg)
  /-- The reserved command words with OP = 0xE, 30_encoding.md R69. -/
  | reservedOpE (arg : CmdArg)
  /-- The reserved command words with OP = 0xF, 30_encoding.md R69. -/
  | reservedOpF (arg : CmdArg)
  /-- REG_READ `idx`, 40_command_interface.md R87. -/
  | regRead (idx : RegIdx)
  /-- REG_WRITE `idx`, `val`, 40_command_interface.md R88. -/
  | regWrite (idx : RegIdx) (val : Word)
  /-- ZC_TOGGLE, 42_zero_cross_sync.md R107 with 41_frequency_detector.md R96. -/
  | zcToggle
  /-- TICK_P, 43_power_scheduler.md R120. -/
  | tickP
  /-- TICK_M, 44_motor_scheduler.md R130. -/
  | tickM
  /-- TICK_F, 41_frequency_detector.md R97. -/
  | tickF
  /-- SVC_ZC, 42_zero_cross_sync.md R108. -/
  | svcZc
  /-- SVC_POVF, 43_power_scheduler.md R121. -/
  | svcPovf
  /-- SVC_MCMP, 44_motor_scheduler.md R131. -/
  | svcMcmp
  /-- RESET, 70_reset_and_hazards.md R175. -/
  | reset
deriving DecidableEq, Repr

/-- The three agents (00_scope.md R12, 60_exceptions.md R166). -/
inductive Agent where
  | env
  | host
  | isr
deriving DecidableEq, Repr

/-- Which agent takes the step (00_scope.md R12, 30_encoding.md R73). -/
def Instr.agent : Instr → Agent
  | .nop | .fdet | .zcen _ | .pwren _ | .setpsm _ | .sstart _ | .arm | .disarm | .minc | .mdec => .host
  | .reservedOpA _ | .reservedOpB _ | .reservedOpC _ | .reservedOpD _ | .reservedOpE _ | .reservedOpF _ => .host
  | .regRead _ | .regWrite _ _ => .host
  | .zcToggle | .tickP | .tickM | .tickF | .reset => .env
  | .svcZc | .svcPovf | .svcMcmp => .isr

/-- One raw, undecoded item of a run (30_encoding.md R65, R73 to R75). A Format C word is what the HOST writes to CMD:
`cmd w` is the trace line of a command, shorthand for `write 0x0 w`. -/
inductive Stim where
  /-- Format C: the command word written to CMD. -/
  | cmd (w : Word)
  /-- Format B: read of a register. -/
  | read (idx : RegIdx)
  /-- Format B: write of a register. -/
  | write (idx : RegIdx) (val : Word)
  /-- Format E: an event code. -/
  | event (code : EventCode)
deriving DecidableEq, Repr

/-- The ten commands a word of 30_encoding.md R68 can spell; the reserved words are no command (R69). -/
def Instr.isCommand : Instr → Bool
  | .nop | .fdet | .zcen _ | .pwren _ | .setpsm _ | .sstart _ | .arm | .disarm | .minc | .mdec => true
  | .reservedOpA _ | .reservedOpB _ | .reservedOpC _ | .reservedOpD _ | .reservedOpE _ | .reservedOpF _ => false
  | .regRead _ | .regWrite _ _ => false
  | .zcToggle | .tickP | .tickM | .tickF | .reset => false
  | .svcZc | .svcPovf | .svcMcmp => false

end Sys2Proof
end

