-- ==== Sys2Proof/WellFormed.lean ====
section
/-!
DEFINITION. Which operations have a legal encoding (30_encoding.md R67, R70) and which parameters the spec admits
(00_scope.md R7, R8).
-/

namespace Sys2Proof

/-- 30_encoding.md R67, R70 (b): of all operands only the level of SSTART is restricted, to 1..5. -/
def Instr.wf : Instr → Bool
  | .sstart m => decide (1 ≤ m.toNat ∧ m.toNat ≤ 5)
  | .nop | .fdet | .zcen _ | .pwren _ | .setpsm _ | .arm | .disarm | .minc | .mdec => true
  | .reservedOpA _ | .reservedOpB _ | .reservedOpC _ | .reservedOpD _ | .reservedOpE _ | .reservedOpF _ => true
  | .regRead _ | .regWrite _ _ => true
  | .zcToggle | .tickP | .tickM | .tickF | .reset => true
  | .svcZc | .svcPovf | .svcMcmp => true

/-- 00_scope.md R8: (a) `D[0] > … > D[5]`, (b) `P[0] > P[1]`, (c) every entry in `1 .. CMP_MAX - 1`. -/
def PhaseTable.wf (t : PhaseTable) (cmpMax : Nat) : Bool :=
  decide (t.D[0] > t.D[1] ∧ t.D[1] > t.D[2] ∧ t.D[2] > t.D[3] ∧ t.D[3] > t.D[4] ∧ t.D[4] > t.D[5]) &&
  decide (t.P[0] > t.P[1]) &&
  decide (t.D[0] < cmpMax ∧ 1 ≤ t.D[5] ∧ t.P[0] < cmpMax ∧ 1 ≤ t.P[1])

/-- 00_scope.md R7, R8: `W` in 4..14 and both tables well-formed. -/
def Params.wf (c : Params) : Bool :=
  decide (4 ≤ c.W ∧ c.W ≤ 14) && c.tbl50.wf c.cmpMax && c.tbl60.wf c.cmpMax

end Sys2Proof
end

