-- ==== Sys2Proof/Decode.lean ====
section
/-!
DEFINITION. Decoding of the three formats, total, rejecting by name (30_encoding.md R66 to R74), and the encoder
written from the same tables.
-/

namespace Sys2Proof

/-- Why an item spells no operation. -/
inductive DecodeReject where
  /-- 30_encoding.md R70 (a): a reserved ARG bit is 1. The block refuses the word (R89): safe. -/
  | reservedArgBit
  /-- 30_encoding.md R70 (b): SSTART with level 0, 6 or 7. The block refuses the word (R89): safe. -/
  | illegalLevel
  /-- 30_encoding.md R73: an unused event code, ILL_TRACE. The trace is refused as a whole: safe. -/
  | unusedEventCode
deriving DecidableEq, Repr

/-- `OP = w[15:12]` (30_encoding.md R66). -/
def cmdOp (w : Word) : BitVec 4 := w.extractLsb' 12 4

/-- `ARG = w[11:0]` (30_encoding.md R66). -/
def cmdArg (w : Word) : CmdArg := w.extractLsb' 0 12

/-- A command without operand: every ARG bit must be 0 (30_encoding.md R70 (a)). -/
def noOperand (arg : CmdArg) (i : Instr) : Except DecodeReject Instr :=
  if arg = 0 then .ok i else .error .reservedArgBit

/-- A command whose operand is ARG[0]: `ARG[11:1]` must be 0 (30_encoding.md R67, R70 (a)). -/
def bitOperand (arg : CmdArg) (mk : Bool → Instr) : Except DecodeReject Instr :=
  if arg.extractLsb' 1 11 = 0 then .ok (mk (arg.getLsbD 0)) else .error .reservedArgBit

/-- SSTART: `ARG[11:3]` must be 0 and the level `ARG[2:0]` one of 1..5 (30_encoding.md R67, R70). -/
def levelOperand (arg : CmdArg) : Except DecodeReject Instr :=
  if arg.extractLsb' 3 9 = 0 then
    if 1 ≤ (arg.extractLsb' 0 3).toNat ∧ (arg.extractLsb' 0 3).toNat ≤ 5 then .ok (.sstart (arg.extractLsb' 0 3))
    else .error .illegalLevel
  else .error .reservedArgBit

/-- The operation of an OP and an ARG (30_encoding.md R72). The reserved OPs 0xA to 0xF keep their argument, as the rows
RESERVED_OP_A to RESERVED_OP_F of the opcode table do; their meaning is the refusal of R69. -/
def decodeFields (op : BitVec 4) (arg : CmdArg) : Except DecodeReject Instr :=
  match op.toNat with
  | 0x0 => noOperand arg .nop
  | 0x1 => noOperand arg .fdet
  | 0x2 => bitOperand arg .zcen
  | 0x3 => bitOperand arg .pwren
  | 0x4 => bitOperand arg .setpsm
  | 0x5 => levelOperand arg
  | 0x6 => noOperand arg .arm
  | 0x7 => noOperand arg .disarm
  | 0x8 => noOperand arg .minc
  | 0x9 => noOperand arg .mdec
  | 0xA => .ok (.reservedOpA arg)
  | 0xB => .ok (.reservedOpB arg)
  | 0xC => .ok (.reservedOpC arg)
  | 0xD => .ok (.reservedOpD arg)
  | 0xE => .ok (.reservedOpE arg)
  | _ => .ok (.reservedOpF arg)

/-- The decoder of command words, total on all of them (30_encoding.md R72). -/
def decodeCommand (w : Word) : Except DecodeReject Instr := decodeFields (cmdOp w) (cmdArg w)

/-- The event codes, 30_encoding.md R73. -/
def decodeEvent (code : EventCode) : Except DecodeReject Instr :=
  match code.toNat with
  | 0x0 => .ok .zcToggle
  | 0x1 => .ok .tickP
  | 0x2 => .ok .tickM
  | 0x3 => .ok .tickF
  | 0x8 => .ok .svcZc
  | 0x9 => .ok .svcPovf
  | 0xA => .ok .svcMcmp
  | 0xF => .ok .reset
  | _ => .error .unusedEventCode

/-- The decoder of a run's raw item (30_encoding.md R65). A Format B operation is its own decoding (R74). -/
def decode : Stim → Except DecodeReject Instr
  | .cmd w => decodeCommand w
  | .read idx => .ok (.regRead idx)
  | .write idx val => .ok (.regWrite idx val)
  | .event code => decodeEvent code

/-- `{OP, ARG}` (30_encoding.md R66). -/
def cmdWord (op : BitVec 4) (arg : CmdArg) : Word := op ++ arg

/-- ARG with its operand bit (30_encoding.md R66). -/
def bitArg (b : Bool) : CmdArg := if b then 1 else 0

/-- The encoder, from the tables of 30_encoding.md R68, R73 and R74. -/
def encode : Instr → Stim
  | .nop => .cmd (cmdWord 0x0 0)
  | .fdet => .cmd (cmdWord 0x1 0)
  | .zcen e => .cmd (cmdWord 0x2 (bitArg e))
  | .pwren e => .cmd (cmdWord 0x3 (bitArg e))
  | .setpsm p => .cmd (cmdWord 0x4 (bitArg p))
  | .sstart m => .cmd (cmdWord 0x5 (m.setWidth 12))
  | .arm => .cmd (cmdWord 0x6 0)
  | .disarm => .cmd (cmdWord 0x7 0)
  | .minc => .cmd (cmdWord 0x8 0)
  | .mdec => .cmd (cmdWord 0x9 0)
  | .reservedOpA arg => .cmd (cmdWord 0xA arg)
  | .reservedOpB arg => .cmd (cmdWord 0xB arg)
  | .reservedOpC arg => .cmd (cmdWord 0xC arg)
  | .reservedOpD arg => .cmd (cmdWord 0xD arg)
  | .reservedOpE arg => .cmd (cmdWord 0xE arg)
  | .reservedOpF arg => .cmd (cmdWord 0xF arg)
  | .regRead idx => .read idx
  | .regWrite idx val => .write idx val
  | .zcToggle => .event 0x0
  | .tickP => .event 0x1
  | .tickM => .event 0x2
  | .tickF => .event 0x3
  | .svcZc => .event 0x8
  | .svcPovf => .event 0x9
  | .svcMcmp => .event 0xA
  | .reset => .event 0xF

/-- The item whose table bits are `w`: a 16-bit row is a Format C word, a row of at most 8 bits a Format E code. The
rows of Format B have no bit encoding (30_encoding.md R74). Log entry 10. -/
def stimOfTableWord (nbits w : Nat) : Option Stim :=
  if nbits = 16 then some (.cmd (BitVec.ofNat 16 w))
  else if 0 < nbits ∧ nbits ≤ 8 ∧ w < 16 then some (.event (BitVec.ofNat 4 w))
  else none

/-- The instruction the decoder reads from a row's bits. -/
def decodeTableWord (nbits w : Nat) : Option Instr :=
  match stimOfTableWord nbits w with
  | none => none
  | some x =>
    match decode x with
    | .ok i => some i
    | .error _ => none

/-- One row of the opcode map of 30_encoding.md R68: a word `w` spells the row when `w &&& mask = base`. -/
structure OpRow where
  mnemonic : String
  base : Word
  mask : Word
deriving DecidableEq, Repr

/-- The sixteen rows of the opcode map, 30_encoding.md R68. -/
def opRows : List OpRow :=
  [ ⟨"NOP", 0x0000, 0xFFFF⟩, ⟨"FDET", 0x1000, 0xFFFF⟩, ⟨"ZCEN", 0x2000, 0xFFFE⟩, ⟨"PWREN", 0x3000, 0xFFFE⟩,
    ⟨"SETPSM", 0x4000, 0xFFFE⟩, ⟨"SSTART", 0x5000, 0xFFF8⟩, ⟨"ARM", 0x6000, 0xFFFF⟩, ⟨"DISARM", 0x7000, 0xFFFF⟩ ] ++
  [ ⟨"MINC", 0x8000, 0xFFFF⟩, ⟨"MDEC", 0x9000, 0xFFFF⟩, ⟨"RESERVED_OP_A", 0xA000, 0xF000⟩,
    ⟨"RESERVED_OP_B", 0xB000, 0xF000⟩, ⟨"RESERVED_OP_C", 0xC000, 0xF000⟩, ⟨"RESERVED_OP_D", 0xD000, 0xF000⟩,
    ⟨"RESERVED_OP_E", 0xE000, 0xF000⟩, ⟨"RESERVED_OP_F", 0xF000, 0xF000⟩ ]

/-- `w` spells the row. -/
def OpRow.spells (r : OpRow) (w : Word) : Bool := w &&& r.mask == r.base

/-- The row of a Format C operation. -/
def Instr.mnemonic : Instr → String
  | .nop => "NOP"
  | .fdet => "FDET"
  | .zcen _ => "ZCEN"
  | .pwren _ => "PWREN"
  | .setpsm _ => "SETPSM"
  | .sstart _ => "SSTART"
  | .arm => "ARM"
  | .disarm => "DISARM"
  | .minc => "MINC"
  | .mdec => "MDEC"
  | .reservedOpA _ => "RESERVED_OP_A"
  | .reservedOpB _ => "RESERVED_OP_B"
  | .reservedOpC _ => "RESERVED_OP_C"
  | .reservedOpD _ => "RESERVED_OP_D"
  | .reservedOpE _ => "RESERVED_OP_E"
  | .reservedOpF _ => "RESERVED_OP_F"
  | .regRead _ => "REG_READ"
  | .regWrite _ _ => "REG_WRITE"
  | .zcToggle => "ZC_TOGGLE"
  | .tickP => "TICK_P"
  | .tickM => "TICK_M"
  | .tickF => "TICK_F"
  | .svcZc => "SVC_ZC"
  | .svcPovf => "SVC_POVF"
  | .svcMcmp => "SVC_MCMP"
  | .reset => "RESET"

end Sys2Proof
end

