-- ==== Sys2Proof/Machine/State.lean ====
section
/-!
DEFINITION. The state of the block, 10_state.md R13 to R27, as plain data; the reasons a step may stop; the state
after reset, R33.
-/

namespace Sys2Proof.Machine

/-- The block raises no exception and has no trap mechanism (60_exceptions.md R150): there is no fault at all. The
outcome codes FAULT_CMP_RANGE and FAULT_SHIFT_RANGE of R151 are marks in State, not stops (R153). -/
inductive Fault : Type
deriving DecidableEq, Repr

/-- Why a step is not taken. -/
inductive Refusal where
  /-- Raised by exec's arm of an instruction that has no meaning yet: none is left. Safe. -/
  | notModelled (mnemonic : String)
  /-- ILL_TRACE (60_exceptions.md R151, 30_encoding.md R75): raised by SVC_ZC, SVC_POVF and SVC_MCMP when that service
  is not enabled; the spec refuses the trace as a whole. Safe. -/
  | serviceNotEnabled
  /-- ILL_TRACE (60_exceptions.md R151, 30_encoding.md R73): raised by step on an unused event code; the spec refuses
  the trace as a whole. Safe. -/
  | unusedEventCode
  /-- Raised by SSTART, MINC and MDEC when the selected table makes a delay difference negative: such a table violates
  00_scope.md R8 (a), is outside the spec, and a model may reject it (93_implementation_defined.md P1). Safe. -/
  | tableOutsideSpec
deriving DecidableEq, Repr

/-- TBL_SEL (10_state.md R20): 0 is the 60 Hz table, 1 the 50 Hz table. -/
inductive TableSel where
  | hz60
  | hz50
deriving DecidableEq, Repr

/-- FD_PHASE (10_state.md R21): 0 awaits the falling edge, 1 counts and awaits the rising edge. -/
inductive FdPhase where
  | awaitFalling
  | awaitRising
deriving DecidableEq, Repr

/-- PSTATE and MSTATE (10_state.md R24). -/
inductive SchedState where
  | idle
  | pending
deriving DecidableEq, Repr

/-- The output channels (10_state.md R27, 43_power_scheduler.md R123). -/
inductive Channel where
  | pwr
  | mot
deriving DecidableEq, Repr

/-- One pulse record `(ch, hc, TCNT_P, TCNT_M)` (10_state.md R27). -/
structure Pulse where
  ch : Channel
  hc : Nat
  tcntP : Nat
  tcntM : Nat
deriving DecidableEq, Repr

/-- The state of the block (10_state.md R13, R27), its parameters (00_scope.md R7), and the model's own two lists.
The W-bit counters are natural numbers because W is a parameter; every write to one is reduced modulo `2^W` (log
entry 13). -/
structure State where
  /-- The parameters of 00_scope.md R7; no step writes them. -/
  cfg : Params
  /-- PSM (R15): false is standby, true is active. -/
  psm : Bool
  /-- MOTOR_MODE (R16): the legal values 0..5 of a 3-bit field (log entry 11). -/
  motorMode : Fin 6
  /-- SHIFT (R17). -/
  shift : BitVec 16
  /-- MOT_ARM (R18). -/
  motArm : Bool
  /-- ZC_EN (R19). -/
  zcEn : Bool
  /-- PWR_EN (R19). -/
  pwrEn : Bool
  /-- TBL_SEL (R20). -/
  tblSel : TableSel
  /-- TBL_VALID (R20). -/
  tblValid : Bool
  /-- FD_BUSY (R21). -/
  fdBusy : Bool
  /-- FD_PHASE (R21). -/
  fdPhase : FdPhase
  /-- FD_COUNT (R21). -/
  fdCount : BitVec 16
  /-- TCNT_P (R22). -/
  tcntP : Nat
  /-- TCNT_M (R22). -/
  tcntM : Nat
  /-- OCR_M (R22). -/
  ocrM : Nat
  /-- ZC_F (R23). -/
  zcF : Bool
  /-- POVF_F (R23). -/
  povfF : Bool
  /-- MCMP_F (R23). -/
  mcmpF : Bool
  /-- PSTATE (R24). -/
  pstate : SchedState
  /-- MSTATE (R24). -/
  mstate : SchedState
  /-- ZC_LVL (R25). -/
  zcLvl : Bool
  /-- PWR_OUT_n[1:0], active low (R26). -/
  pwrOutN : BitVec 2
  /-- MOT_OUT_n[1:0], active low (R26). -/
  motOutN : BitVec 2
  /-- `hc`, the count of SVC_ZC steps since reset (R27, model-only). -/
  hc : Nat
  /-- `trace`, the pulses in emission order (R27, model-only). -/
  trace : List Pulse
  /-- `refused` (R27, model-only, 60_exceptions.md R154). -/
  refused : Bool
  /-- `fault` (R27, model-only, 60_exceptions.md R153). -/
  fault : Bool
  /-- The coming steps of the agents in the order they are taken (00_scope.md R12; the model's own, log entry 5). -/
  inputs : List Stim
  /-- The values REG_READ has returned to the HOST, oldest first (30_encoding.md R74; the model's own, log entry 6). -/
  rdata : List Word
deriving DecidableEq, Repr

/-- Every field of the block at its reset value (10_state.md R33), under given parameters. -/
def State.resetWith (c : Params) : State where
  cfg := c
  psm := false
  motorMode := 0
  shift := 0
  motArm := false
  zcEn := false
  pwrEn := false
  tblSel := .hz60
  tblValid := false
  fdBusy := false
  fdPhase := .awaitFalling
  fdCount := 0
  tcntP := 0
  tcntM := 0
  ocrM := c.cmpMax
  zcF := false
  povfF := false
  mcmpF := false
  pstate := .idle
  mstate := .idle
  zcLvl := c.zcLvl0
  pwrOutN := 0b11
  motOutN := 0b11
  hc := 0
  trace := []
  refused := false
  fault := false
  inputs := []
  rdata := []

/-- The machine right after reset (10_state.md R33, 70_reset_and_hazards.md R175). -/
def State.reset : State := State.resetWith Config.params

end Sys2Proof.Machine
end

