-- ==== Sys2Proof/Machine/Flags.lean ====
section
/-!
DEFINITION. The pending flags (10_state.md R23), the enabling of their services (60_exceptions.md R157, R158) and the
two model marks (R153, R154).
-/

namespace Sys2Proof.Machine

/-- The three interrupt services (60_exceptions.md R155). -/
inductive Service where
  | zc
  | povf
  | mcmp
deriving DecidableEq, Repr

/-- The pending flag of a service (60_exceptions.md R155). -/
def State.pendingFlag (s : State) : Service → Bool
  | .zc => s.zcF
  | .povf => s.povfF
  | .mcmp => s.mcmpF

/-- Whether a service's step is enabled: iff its flag is 1 (60_exceptions.md R157); under FIXED(ZC, POVF, MCMP) only the
highest pending flag's service (R158). -/
def State.serviceEnabled (s : State) (v : Service) : Bool :=
  match s.cfg.serviceOrder, v with
  | .unconstrained, v => s.pendingFlag v
  | .fixed, .zc => s.zcF
  | .fixed, .povf => s.povfF && !s.zcF
  | .fixed, .mcmp => s.mcmpF && !s.zcF && !s.povfF

/-- The flag of an overflow or a match is raised when `c` holds, and merged if it is already 1 (60_exceptions.md
R152). -/
def raiseFlag (old c : Bool) : Bool := old || c

/-- `refuse` (00_scope.md R11): no field changes but the sticky model mark (60_exceptions.md R154). -/
def State.refuse (s : State) : State := { s with refused := true }

/-- The sticky model mark `fault`, set when `c` holds (60_exceptions.md R153). -/
def State.faultIf (s : State) (c : Bool) : State := { s with fault := s.fault || c }

end Sys2Proof.Machine
end

