-- ==== Sys2Proof/Machine/Operands.lean ====
section
/-!
DEFINITION. The operand forms: the phase-table reads (00_scope.md R11), the even normalisation (45_soft_start.md R138),
the countdown load (43_power_scheduler.md R119), and the register views (10_state.md R29 to R32).
-/

namespace Sys2Proof.Machine

/-- `even(x) = x + (x mod 2)` (45_soft_start.md R138). -/
def evenUp (x : Nat) : Nat := x + x % 2

/-- `T.P[PSM]`: powerDelay at the power-supply mode (10_state.md R15). -/
def powerDelay (t : PhaseTable) (psm : Bool) : Nat := if psm then t.P[1] else t.P[0]

/-- `T.D[m]`: motorDelay at a level (00_scope.md R11). -/
def motorDelay (t : PhaseTable) (m : Fin 6) : Nat := t.D[m]

/-- `T.D[i] - T.D[j]`, or nothing where the table makes it negative: such a table violates 00_scope.md R8 (a). -/
def delayFall (t : PhaseTable) (i j : Fin 6) : Option Nat :=
  if motorDelay t j ≤ motorDelay t i then some (motorDelay t i - motorDelay t j) else none

/-- `T = TBL(TBL_SEL)` with `TBL(1) = TBL50`, `TBL(0) = TBL60` (00_scope.md R11). -/
def State.table (s : State) : PhaseTable :=
  match s.tblSel with
  | .hz50 => s.cfg.tbl50
  | .hz60 => s.cfg.tbl60

/-- `x mod 2^W`, the value a W-bit register holds (00_scope.md R10). -/
def wrapW (c : Params) (x : Nat) : Nat := x % 2 ^ c.W

/-- The countdown load `(2^W - d) mod 2^W` (43_power_scheduler.md R119), for the W-bit entry `d`. -/
def countdown (c : Params) (d : Nat) : Nat := wrapW c (2 ^ c.W - wrapW c d)

/-- The level an SSTART operand names, where it is one of 1..5 (30_encoding.md R67). -/
def levelOf (m : BitVec 3) : Option (Fin 6) :=
  if h : 1 ≤ m.toNat ∧ m.toNat ≤ 5 then some ⟨m.toNat, Nat.lt_succ_of_le h.2⟩ else none

/-- The next higher level (45_soft_start.md R140), for levels below 5. -/
def levelUp (m : Fin 6) : Fin 6 := if h : m.val + 1 < 6 then ⟨m.val + 1, h⟩ else m

/-- The next lower level (45_soft_start.md R141). -/
def levelDown (m : Fin 6) : Fin 6 := ⟨m.val - 1, Nat.lt_of_le_of_lt (Nat.sub_le _ _) m.isLt⟩

/-- TBL_SEL as it reads (10_state.md R20). -/
def tblSelBit : TableSel → Bool
  | .hz60 => false
  | .hz50 => true

/-- FD_PHASE as it reads (10_state.md R21). -/
def fdPhaseBit : FdPhase → Bool
  | .awaitFalling => false
  | .awaitRising => true

/-- PSTATE and MSTATE as they read (10_state.md R24). -/
def schedBit : SchedState → Bool
  | .idle => false
  | .pending => true

/-- STATUS (10_state.md R29), bit 0 first. -/
def statusView (s : State) : Word :=
  BitVec.ofBoolListLE
    [ s.zcEn, s.pwrEn, s.motArm, tblSelBit s.tblSel, s.tblValid, s.fdBusy, fdPhaseBit s.fdPhase, schedBit s.pstate,
      schedBit s.mstate, s.zcF, s.povfF, s.mcmpF, s.zcLvl, false, false, false ]

/-- MODE (10_state.md R30): MOTOR_MODE in bits 2:0, PSM in bit 8. -/
def modeView (s : State) : Word := BitVec.ofNat 16 (s.motorMode.val + if s.psm then 2 ^ 8 else 0)

/-- A W-bit register in bits W-1:0, with bits 15:W reading 0 (10_state.md R31). -/
def counterView (c : Params) (x : Nat) : Word := BitVec.ofNat 16 (wrapW c x)

/-- `view(s, idx)` (40_command_interface.md R87): the register map of 20_memory.md R52. CMD and the reserved indices
read 0. -/
def view (s : State) (idx : RegIdx) : Word :=
  match idx.toNat with
  | 0x1 => statusView s
  | 0x2 => modeView s
  | 0x3 => s.shift
  | 0x4 => counterView s.cfg s.tcntP
  | 0x5 => counterView s.cfg s.tcntM
  | 0x6 => counterView s.cfg s.ocrM
  | 0x7 => s.fdCount
  | _ => 0

end Sys2Proof.Machine
end

