-- ==== Sys2Proof/Machine/Ops.lean ====
section
/-!
DEFINITION. The named operations the meanings share: the pulse driver (43_power_scheduler.md R123), a service's entry
(60_exceptions.md R157, R159), the value a read returns, reset (70_reset_and_hazards.md R175), and how an item of the
run is taken or rejected. The block takes no exception and returns from none (60_exceptions.md R150, R161): a service's
entry saves nothing.
-/

namespace Sys2Proof.Machine

/-- What a meaning answers. -/
abbrev Result := Host.Outcome State Fault Refusal

/-- Both lines of one output pair at a level (43_power_scheduler.md R123, 92_eei_decisions.md D21). -/
def State.drive (s : State) (ch : Channel) (lines : BitVec 2) : State :=
  match ch with
  | .pwr => { s with pwrOutN := lines }
  | .mot => { s with motOutN := lines }

/-- The record of a pulse, with the values at that point of the step (43_power_scheduler.md R123 point 1). -/
def State.record (s : State) (ch : Channel) : State :=
  { s with trace := s.trace ++ [⟨ch, s.hc, s.tcntP, s.tcntM⟩] }

/-- `emit PULSE(ch)` (43_power_scheduler.md R123): record, both lines low, both lines back to 1, in one step. -/
def State.emit (s : State) (ch : Channel) : State := ((s.record ch).drive ch 0b00).drive ch 0b11

/-- A service runs only when enabled; a trace that asks for one that is not is ill-formed (30_encoding.md R75). Entry
saves nothing and masks nothing (60_exceptions.md R159). -/
def service (v : Service) (effect : State → State) (s : State) : Result :=
  if s.serviceEnabled v then .next (effect s) else .refused .serviceNotEnabled

/-- REG_READ's value goes to the HOST (30_encoding.md R74). -/
def State.returnRead (s : State) (v : Word) : State := { s with rdata := s.rdata ++ [v] }

/-- RESET (70_reset_and_hazards.md R175): every field of the block at its reset value; the parameters, the coming steps
and the values the HOST has already received are no fields of the block. -/
def State.toReset (s : State) : State := { State.resetWith s.cfg with inputs := s.inputs, rdata := s.rdata }

/-- The run with one item less to come. -/
def State.takeInput (s : State) (rest : List Stim) : State := { s with inputs := rest }

/-- An item that spells no operation: a refused command word changes nothing but the mark (30_encoding.md R70,
40_command_interface.md R89), an unused event code refuses the trace (30_encoding.md R73). -/
def rejectStim : DecodeReject → State → Result
  | .reservedArgBit, s => .next s.refuse
  | .illegalLevel, s => .next s.refuse
  | .unusedEventCode, _ => .refused .unusedEventCode

/-- No agent takes a step: the block waits (60_exceptions.md R168, R169; log entry 5). -/
def idle (s : State) : Result := .next s

/-- The pending flag that selects a service (20_memory.md R53, 60_exceptions.md R157), set so that the service is
enabled; under FIXED the higher flags are cleared too. -/
def State.selectService (s : State) (v : Service) : State :=
  match s.cfg.serviceOrder, v with
  | .unconstrained, .zc => { s with zcF := true }
  | .unconstrained, .povf => { s with povfF := true }
  | .unconstrained, .mcmp => { s with mcmpF := true }
  | .fixed, .zc => { s with zcF := true }
  | .fixed, .povf => { s with povfF := true, zcF := false }
  | .fixed, .mcmp => { s with mcmpF := true, zcF := false, povfF := false }

/-- The service an item asks for, if it asks for one (30_encoding.md R73). -/
def stimService (x : Stim) : Option Service :=
  match decode x with
  | .ok .svcZc => some .zc
  | .ok .svcPovf => some .povf
  | .ok .svcMcmp => some .mcmp
  | _ => none

/-- `x` as the very next step: at the head of the run, with the flag that selects it where it is a service (log entry
10). -/
def placeStim (s : State) (x : Stim) : State :=
  let t := { s with inputs := x :: s.inputs }
  match stimService x with
  | some v => t.selectService v
  | none => t

/-- The item of a table row, where the row has bits (30_encoding.md R74: Format B has none). -/
def placeTableWord (s : State) (nbits w : Nat) : State :=
  match stimOfTableWord nbits w with
  | some x => placeStim s x
  | none => s

end Sys2Proof.Machine
end

