-- ==== Sys2Proof/Machine/Detector.lean ====
section
/-!
DEFINITION. The frequency detector, 41_frequency_detector.md: FDET, TICK_F, and the detector effect of ZC_TOGGLE.
-/

namespace Sys2Proof.Machine

/-- FDET (41_frequency_detector.md R95). -/
def execFdet (s : State) : Result :=
  if s.tblValid || s.fdBusy || s.zcEn then .next s.refuse
  else .next { s with fdBusy := true, fdPhase := .awaitFalling }

/-- `complete(s)` (41_frequency_detector.md R103): the comparison is strict, equality selects 60 Hz. -/
def State.completeDetection (s : State) : State :=
  { s with
    tblSel := if s.fdCount.toNat > Config.fdThresh then .hz50 else .hz60
    tblValid := true
    fdBusy := false
    fdPhase := .awaitFalling }

/-- `fd_edge(s, lvl)` (41_frequency_detector.md R96), on the state before the step. -/
def State.detectorEdge (s : State) (lvl : Bool) : State :=
  if s.fdBusy then
    match s.fdPhase, lvl with
    | .awaitFalling, false => { s with fdCount := 0, fdPhase := .awaitRising }
    | .awaitRising, true => s.completeDetection
    | .awaitFalling, true => s
    | .awaitRising, false => s
  else s

/-- One more detector tick, saturating at 0xFFFF (41_frequency_detector.md R97). -/
def saturatingTick (c : BitVec 16) : BitVec 16 := if c = 0xFFFF then c else c + 1

/-- TICK_F (41_frequency_detector.md R97). -/
def execTickF (s : State) : Result :=
  if s.fdBusy && decide (s.fdPhase = .awaitRising) then .next { s with fdCount := saturatingTick s.fdCount }
  else .next s

end Sys2Proof.Machine
end

