-- ==== Sys2Proof/Machine/Motor.lean ====
section
/-!
DEFINITION. The motor-pulse scheduler, 44_motor_scheduler.md: ARM, DISARM, TICK_M, SVC_MCMP.
-/

namespace Sys2Proof.Machine

/-- ARM (44_motor_scheduler.md R127). -/
def execArm (s : State) : Result :=
  if s.motArm then .next s else .next { s with motArm := true, mcmpF := false, mstate := .idle }

/-- DISARM (44_motor_scheduler.md R128). -/
def execDisarm (s : State) : Result := .next { s with motArm := false }

/-- TICK_M (44_motor_scheduler.md R130): the match is tested after the increment. -/
def execTickM (s : State) : Result :=
  let n := wrapW s.cfg (s.tcntM + 1)
  .next { s with tcntM := n, mcmpF := raiseFlag s.mcmpF (n == s.ocrM) }

/-- SVC_MCMP's effect (44_motor_scheduler.md R131). -/
def State.serviceMatch (s : State) : State :=
  let t := { s with mcmpF := false }
  if t.motArm then
    let u :=
      match t.mstate with
      | .pending => t.emit .mot
      | .idle => t
    { u with ocrM := s.cfg.cmpMax, mstate := .idle }
  else t

/-- SVC_MCMP (44_motor_scheduler.md R131). -/
def execSvcMcmp (s : State) : Result := service .mcmp State.serviceMatch s

end Sys2Proof.Machine
end

