-- ==== Sys2Proof/Machine/Power.lean ====
section
/-!
DEFINITION. The power-pulse scheduler, 43_power_scheduler.md: PWREN, SETPSM, TICK_P, SVC_POVF.
-/

namespace Sys2Proof.Machine

/-- PWREN `e` (43_power_scheduler.md R116). -/
def execPwren (e : Bool) (s : State) : Result := .next { s with pwrEn := e }

/-- SETPSM `p` (43_power_scheduler.md R117). -/
def execSetpsm (p : Bool) (s : State) : Result := .next { s with psm := p }

/-- TICK_P (43_power_scheduler.md R120): overflow is the wrap to 0. -/
def execTickP (s : State) : Result :=
  let n := wrapW s.cfg (s.tcntP + 1)
  .next { s with tcntP := n, povfF := raiseFlag s.povfF (n == 0) }

/-- SVC_POVF's effect (43_power_scheduler.md R121). -/
def State.serviceOverflow (s : State) : State :=
  let t := { s with povfF := false }
  match t.pstate with
  | .pending => { (if t.pwrEn then t.emit .pwr else t) with pstate := .idle }
  | .idle => t

/-- SVC_POVF (43_power_scheduler.md R121). -/
def execSvcPovf (s : State) : Result := service .povf State.serviceOverflow s

end Sys2Proof.Machine
end

