-- ==== Sys2Proof/Machine/SoftStart.lean ====
section
/-!
DEFINITION. The soft-start ramp, 45_soft_start.md: SSTART, MINC, MDEC.
-/

namespace Sys2Proof.Machine

/-- SSTART `m` (45_soft_start.md R139). A level other than 1..5 is refused at decode (30_encoding.md R70); the meaning
refuses it too (log entry 16). -/
def execSstart (m : BitVec 3) (s : State) : Result :=
  match levelOf m with
  | none => .next s.refuse
  | some lvl =>
    if s.tblValid then
      match delayFall s.table 0 lvl with
      | some a => .next { s with motorMode := lvl, shift := BitVec.ofNat 16 (evenUp a) }
      | none => .refused .tableOutsideSpec
    else .next s.refuse

/-- MINC (45_soft_start.md R140): no change at the ceiling, else re-base by the even delta, modulo `2^16` with the mark
(R146). -/
def execMinc (s : State) : Result :=
  if !s.tblValid || decide (s.motorMode = 0) then .next s.refuse
  else if s.motorMode = 5 then .next s
  else
    match delayFall s.table s.motorMode (levelUp s.motorMode) with
    | some a =>
      let r := s.shift.toNat + evenUp a
      .next { s.faultIf (decide (r > 0xFFFF)) with
        shift := BitVec.ofNat 16 r
        motorMode := levelUp s.motorMode }
    | none => .refused .tableOutsideSpec

/-- MDEC (45_soft_start.md R141): no change at the floor, else the correction only when SHIFT exceeds the raw delta. -/
def execMdec (s : State) : Result :=
  if !s.tblValid || decide (s.motorMode = 0) then .next s.refuse
  else if s.motorMode = 1 then .next s
  else
    match delayFall s.table (levelDown s.motorMode) s.motorMode with
    | some a =>
      .next { s with
        shift := if s.shift.toNat > a then s.shift - BitVec.ofNat 16 (evenUp a) else s.shift
        motorMode := levelDown s.motorMode }
    | none => .refused .tableOutsideSpec

end Sys2Proof.Machine
end

