-- ==== Sys2Proof/Machine/Sync.lean ====
section
/-!
DEFINITION. The zero-cross synchronizer and the timer reload engine, 42_zero_cross_sync.md: ZCEN, ZC_TOGGLE, SVC_ZC.
-/

namespace Sys2Proof.Machine

/-- ZCEN `e` (42_zero_cross_sync.md R106). -/
def execZcen (e : Bool) (s : State) : Result :=
  if e then
    if !s.tblValid || s.fdBusy then .next s.refuse else .next { s with zcEn := true }
  else .next { s with zcEn := false, zcF := false }

/-- ZC_TOGGLE (42_zero_cross_sync.md R107), with the detector effect of 41_frequency_detector.md R96 in the same step. -/
def execZcToggle (s : State) : Result :=
  let lvl := !s.zcLvl
  let t := s.detectorEdge lvl
  .next { t with zcLvl := lvl, zcF := s.zcF || s.zcEn }

/-- Steps 1 to 3 of the service (42_zero_cross_sync.md R108): flag, motor timer, power countdown, both PENDING. -/
def State.reloadTimers (s : State) : State :=
  { s with
    hc := s.hc + 1
    zcF := false
    tcntM := 0
    mstate := .pending
    tcntP := countdown s.cfg (powerDelay s.table s.psm)
    pstate := .pending }

/-- The exact sum of step 4 (42_zero_cross_sync.md R108), with SHIFT before step 5. -/
def State.compareSum (s : State) : Nat := motorDelay s.table s.motorMode + s.shift.toNat

/-- Step 4 (42_zero_cross_sync.md R108, R112): the sum modulo `2^W`, and the mark when it exceeds CMP_MAX. -/
def State.loadCompare (s : State) : State :=
  { s.faultIf (decide (s.compareSum > s.cfg.cmpMax)) with ocrM := wrapW s.cfg s.compareSum }

/-- Step 5 (42_zero_cross_sync.md R108, 45_soft_start.md R137). DESIGN CHOICE: at SHIFT = 1, not reachable, it wraps (log
entry 12). -/
def State.decayShift (s : State) : State :=
  if s.shift = 0 then s else { s with shift := s.shift - BitVec.ofNat 16 Config.shiftStep }

/-- Step 6 (42_zero_cross_sync.md R108, 43_power_scheduler.md R124). -/
def State.forcePulse (s : State) : State :=
  if s.psm then
    let t := if s.pwrEn then s.emit .pwr else s
    match s.cfg.forcePolicy with
    | .replace => { t with pstate := .idle }
    | .additional => t
  else s

/-- SVC_ZC (42_zero_cross_sync.md R108): the six steps in order, one atomic step. -/
def execSvcZc (s : State) : Result :=
  service .zc (fun s => s.reloadTimers.loadCompare.decayShift.forcePulse) s

end Sys2Proof.Machine
end

