-- ==== Sys2Proof/Machine/Command.lean ====
section
/-!
DEFINITION. The host command interface, 40_command_interface.md: NOP, the reserved words, REG_READ, and REG_WRITE with
the dispatch of a command word (R86).
-/

namespace Sys2Proof.Machine

/-- NOP (40_command_interface.md R85). -/
def execNop (s : State) : Result := .next s

/-- A reserved command word (30_encoding.md R69, 40_command_interface.md R89): no field of the block changes. -/
def reservedWord (_arg : CmdArg) (s : State) : Result := .next s.refuse

/-- RESERVED_OP_A (30_encoding.md R69). -/
def execReservedOpA (arg : CmdArg) (s : State) : Result := reservedWord arg s

/-- RESERVED_OP_B (30_encoding.md R69). -/
def execReservedOpB (arg : CmdArg) (s : State) : Result := reservedWord arg s

/-- RESERVED_OP_C (30_encoding.md R69). -/
def execReservedOpC (arg : CmdArg) (s : State) : Result := reservedWord arg s

/-- RESERVED_OP_D (30_encoding.md R69). -/
def execReservedOpD (arg : CmdArg) (s : State) : Result := reservedWord arg s

/-- RESERVED_OP_E (30_encoding.md R69). -/
def execReservedOpE (arg : CmdArg) (s : State) : Result := reservedWord arg s

/-- RESERVED_OP_F (30_encoding.md R69). -/
def execReservedOpF (arg : CmdArg) (s : State) : Result := reservedWord arg s

/-- `exec(c, s)` of the dispatch (40_command_interface.md R86): the command's own rule. A word decodes to nothing but a
command or a reserved word; the other operations have no word, and are listed so that none slips past. -/
def execCommand (i : Instr) (s : State) : Result :=
  match i with
  | .nop => execNop s
  | .fdet => execFdet s
  | .zcen e => execZcen e s
  | .pwren e => execPwren e s
  | .setpsm p => execSetpsm p s
  | .sstart m => execSstart m s
  | .arm => execArm s
  | .disarm => execDisarm s
  | .minc => execMinc s
  | .mdec => execMdec s
  | .reservedOpA arg => execReservedOpA arg s
  | .reservedOpB arg => execReservedOpB arg s
  | .reservedOpC arg => execReservedOpC arg s
  | .reservedOpD arg => execReservedOpD arg s
  | .reservedOpE arg => execReservedOpE arg s
  | .reservedOpF arg => execReservedOpF arg s
  | .regRead _ | .regWrite _ _ => .next s.refuse
  | .zcToggle | .tickP | .tickM | .tickF | .reset => .next s.refuse
  | .svcZc | .svcPovf | .svcMcmp => .next s.refuse

/-- `cmd_write(s, w)` (40_command_interface.md R86, R89). -/
def cmdWrite (w : Word) (s : State) : Result :=
  match decodeCommand w with
  | .ok c => execCommand c s
  | .error e => rejectStim e s

/-- REG_READ `idx` (40_command_interface.md R87): the register's value goes to the HOST; no field changes. -/
def execRegRead (idx : RegIdx) (s : State) : Result := .next (s.returnRead (view s idx))

/-- REG_WRITE `idx`, `val` (40_command_interface.md R88): index 0 executes a command, every other index is ignored and
is no refusal. -/
def execRegWrite (idx : RegIdx) (val : Word) (s : State) : Result :=
  if idx = 0 then cmdWrite val s else .next s

end Sys2Proof.Machine
end

