-- ==== Sys2Proof/Machine/Reset.lean ====
section
/-!
DEFINITION. RESET, 70_reset_and_hazards.md R175.
-/

namespace Sys2Proof.Machine

/-- RESET (70_reset_and_hazards.md R175): legal at any time; not an edge. -/
def execReset (s : State) : Result := .next s.toReset

end Sys2Proof.Machine
end

