-- ==== Sys2Proof/Machine/Dispatch.lean ====
section
/-!
DEFINITION. The dispatch of an operation to its meaning, one arm per row of spec/opcode_table.json.
-/

namespace Sys2Proof.Machine

/-- The effect of one operation, as one atomic step (20_memory.md R58). -/
def exec (i : Instr) (s : State) : Host.Outcome State Fault Refusal :=
  match i with
  -- host commands, Format C
  | .nop => Sys2Proof.Machine.execNop s
  | .fdet => Sys2Proof.Machine.execFdet s
  | .zcen e => Sys2Proof.Machine.execZcen e s
  | .pwren e => Sys2Proof.Machine.execPwren e s
  | .setpsm p => Sys2Proof.Machine.execSetpsm p s
  | .sstart m => Sys2Proof.Machine.execSstart m s
  | .arm => Sys2Proof.Machine.execArm s
  | .disarm => Sys2Proof.Machine.execDisarm s
  | .minc => Sys2Proof.Machine.execMinc s
  | .mdec => Sys2Proof.Machine.execMdec s
  -- reserved command words
  | .reservedOpA arg => Sys2Proof.Machine.execReservedOpA arg s
  | .reservedOpB arg => Sys2Proof.Machine.execReservedOpB arg s
  | .reservedOpC arg => Sys2Proof.Machine.execReservedOpC arg s
  | .reservedOpD arg => Sys2Proof.Machine.execReservedOpD arg s
  | .reservedOpE arg => Sys2Proof.Machine.execReservedOpE arg s
  | .reservedOpF arg => Sys2Proof.Machine.execReservedOpF arg s
  -- host bus operations, Format B
  | .regRead idx => Sys2Proof.Machine.execRegRead idx s
  | .regWrite idx val => Sys2Proof.Machine.execRegWrite idx val s
  -- environment events and interrupt services, Format E
  | .zcToggle => Sys2Proof.Machine.execZcToggle s
  | .tickP => Sys2Proof.Machine.execTickP s
  | .tickM => Sys2Proof.Machine.execTickM s
  | .tickF => Sys2Proof.Machine.execTickF s
  | .svcZc => Sys2Proof.Machine.execSvcZc s
  | .svcPovf => Sys2Proof.Machine.execSvcPovf s
  | .svcMcmp => Sys2Proof.Machine.execSvcMcmp s
  | .reset => Sys2Proof.Machine.execReset s

end Sys2Proof.Machine
end

