-- ==== Sys2Proof/Machine/Step.lean ====
section
/-!
DEFINITION. One step of the block (00_scope.md R12): the next item of the run is taken, decoded and executed.
-/

namespace Sys2Proof.Machine

/-- One atomic step (00_scope.md R12, 20_memory.md R58). With no item to come no agent acts. -/
def step (s : State) : Host.Outcome State Fault Refusal :=
  match s.inputs with
  | [] => idle s
  | x :: rest =>
    match decode x with
    | .ok i => exec i (s.takeInput rest)
    | .error e => rejectStim e (s.takeInput rest)

/-- `s` with the item of a table row as its very next step (log entry 10). -/
def State.withFetchWord (s : State) (nbits w : Nat) : State := placeTableWord s nbits w

end Sys2Proof.Machine
end

