-- ==== Sys2Proof/Machine/Assembly.lean ====
section
/-!
DEFINITION. The assembly text of a run (30_encoding.md R75) and the pseudo-instructions of the HOST (R76). Text is a
list of characters; every function is structural, so that the kernel can run it.
-/

namespace Sys2Proof.Machine

/-- Text after `;` is a comment (30_encoding.md R75). -/
def dropComment : List Char → List Char
  | [] => []
  | c :: cs => if c = ';' then [] else c :: dropComment cs

/-- The characters that separate the parts of a line (log entry 20). -/
def isGap (c : Char) : Bool := c = ' ' || c = ',' || c = '\t' || c = '\r'

/-- The parts of a line: `word` is the part being read. -/
def splitParts (word : List Char) : List Char → List (List Char)
  | [] => if word = [] then [] else [word]
  | c :: cs =>
    if isGap c then (if word = [] then splitParts [] cs else word :: splitParts [] cs)
    else splitParts (word ++ [c]) cs

/-- The lines of a text. -/
def splitLines (line : List Char) : List Char → List (List Char)
  | [] => [line]
  | c :: cs => if c = '\n' then line :: splitLines [] cs else splitLines (line ++ [c]) cs

/-- A digit's value. -/
def digitValue (c : Char) : Option Nat :=
  let n := c.toNat
  if 48 ≤ n ∧ n ≤ 57 then some (n - 48)
  else if 65 ≤ n ∧ n ≤ 70 then some (n - 55)
  else if 97 ≤ n ∧ n ≤ 102 then some (n - 87)
  else none

/-- Digits in a base, after the value read so far. -/
def digitsIn (base acc : Nat) : List Char → Option Nat
  | [] => some acc
  | c :: cs =>
    match digitValue c with
    | some d => if d < base then digitsIn base (acc * base + d) cs else none
    | none => none

/-- A number, decimal or hexadecimal with `0x` (30_encoding.md R75). -/
def number : List Char → Option Nat
  | '0' :: 'x' :: d :: ds => digitsIn 16 0 (d :: ds)
  | d :: ds => digitsIn 10 0 (d :: ds)
  | [] => none

/-- A number below a bound. -/
def numberBelow (bound : Nat) (word : List Char) : Option Nat :=
  match number word with
  | some n => if n < bound then some n else none
  | none => none

/-- The commands without operand (30_encoding.md R75). -/
def plainCommand (word : List Char) : Option Instr :=
  if word = ['N', 'O', 'P'] then some .nop
  else if word = ['F', 'D', 'E', 'T'] then some .fdet
  else if word = ['A', 'R', 'M'] then some .arm
  else if word = ['D', 'I', 'S', 'A', 'R', 'M'] then some .disarm
  else if word = ['M', 'I', 'N', 'C'] then some .minc
  else if word = ['M', 'D', 'E', 'C'] then some .mdec
  else none

/-- The commands with one operand (30_encoding.md R75). -/
def operandCommand (word arg : List Char) : Option Instr :=
  if word = ['Z', 'C', 'E', 'N'] then (numberBelow 2 arg).map (fun n => .zcen (n == 1))
  else if word = ['P', 'W', 'R', 'E', 'N'] then (numberBelow 2 arg).map (fun n => .pwren (n == 1))
  else if word = ['S', 'E', 'T', 'P', 'S', 'M'] then (numberBelow 2 arg).map (fun n => .setpsm (n == 1))
  else if word = ['S', 'S', 'T', 'A', 'R', 'T'] then (numberBelow 8 arg).map (fun n => .sstart (BitVec.ofNat 3 n))
  else none

/-- The tick events (30_encoding.md R75). -/
def tickEvent (word : List Char) : Option Instr :=
  if word = ['T', 'I', 'C', 'K', 'P'] then some .tickP
  else if word = ['T', 'I', 'C', 'K', 'M'] then some .tickM
  else if word = ['T', 'I', 'C', 'K', 'F'] then some .tickF
  else none

/-- The services by the name after `SVC` (30_encoding.md R75). -/
def serviceEvent (word : List Char) : Option Instr :=
  if word = ['Z', 'C'] then some .svcZc
  else if word = ['P', 'O', 'V', 'F'] then some .svcPovf
  else if word = ['M', 'C', 'M', 'P'] then some .svcMcmp
  else none

/-- A line of one part. -/
def line1 (w : List Char) : Option (List Stim) :=
  if w = ['Z', 'C'] then some [encode .zcToggle]
  else if w = ['R', 'E', 'S', 'E', 'T'] then some [encode .reset]
  else
    match plainCommand w, tickEvent w with
    | some i, _ => some [encode i]
    | none, some i => some [encode i]
    | none, none => none

/-- A line of two parts. `n` events of a tick are `n` items (30_encoding.md R75). -/
def line2 (w a : List Char) : Option (List Stim) :=
  if w = ['R', 'D'] then (numberBelow 16 a).map (fun n => [.read (BitVec.ofNat 4 n)])
  else if w = ['S', 'V', 'C'] then (serviceEvent a).map (fun i => [encode i])
  else
    match tickEvent w with
    | some i => (number a).map (fun n => List.replicate n (encode i))
    | none => (operandCommand w a).map (fun i => [encode i])

/-- A line of three parts: `WR idx, val` (30_encoding.md R75). -/
def line3 (w a b : List Char) : Option (List Stim) :=
  if w = ['W', 'R'] then
    match numberBelow 16 a, numberBelow 65536 b with
    | some i, some v => some [.write (BitVec.ofNat 4 i) (BitVec.ofNat 16 v)]
    | _, _ => none
  else none

/-- One line of assembly (30_encoding.md R75): the items it stands for, or nothing where it is no line of the language. DESIGN
CHOICE: a blank or comment-only line stands for no item and is accepted; the rule is silent on it (log entry 20). -/
def assembleLine (text : List Char) : Option (List Stim) :=
  match splitParts [] (dropComment text) with
  | [] => some []
  | [w] => line1 w
  | [w, a] => line2 w a
  | [w, a, b] => line3 w a b
  | _ => none

/-- The items of a list of lines, in order. -/
def assembleLines : List (List Char) → Option (List Stim)
  | [] => some []
  | l :: ls =>
    match assembleLine l, assembleLines ls with
    | some xs, some ys => some (xs ++ ys)
    | _, _ => none

/-- A whole text, one operation a line (30_encoding.md R75). -/
def assemble (text : List Char) : Option (List Stim) := assembleLines (splitLines [] text)

/-- The pseudo-instructions of the HOST (30_encoding.md R76). -/
inductive Pseudo where
  | boot
  | powerOn (m : BitVec 3) (filterOpen : Bool)
  | powerOff
  | filterClose
  | filterOpen
  | speedUp
  | speedDown
deriving DecidableEq, Repr

/-- The commands a pseudo-instruction stands for, in order (30_encoding.md R76). `waiting` are the steps of the boot's
second line, the environment's edges and ticks and the HOST's polls of STATUS; `mode` is MOTOR_MODE as the HOST read it
for FILTER_OPEN. -/
def Pseudo.expand (waiting : List Instr) (mode : Fin 6) : Pseudo → List Instr
  | .boot => [.fdet] ++ waiting ++ [.pwren true, .zcen true]
  | .powerOn m f => [.setpsm true, .sstart m] ++ (if f then [.arm] else [])
  | .powerOff => [.disarm, .setpsm false]
  | .filterClose => [.disarm]
  | .filterOpen => [.sstart (BitVec.ofNat 3 mode.val), .arm]
  | .speedUp => [.minc]
  | .speedDown => [.mdec]

/-- The HOST's level at power-on (30_encoding.md R76): override-A gives 1, else override-B 5, else 3. -/
def powerOnLevel (overrideA overrideB : Bool) : BitVec 3 := if overrideA then 1 else if overrideB then 5 else 3

end Sys2Proof.Machine
end

