-- ==== Sys2Proof/Safety.lean ====
section
/-!
DEFINITION. The terms claims about runs are stated in: quiescence and PROMPT_SERVICE (60_exceptions.md R160, R169),
the outcome codes (R151), the invariants of 10_state.md R34, and the pulses of a half-cycle (43_power_scheduler.md R122,
44_motor_scheduler.md R132).
-/

namespace Sys2Proof.Machine

/-- A run of operations, each one atomic step, stopping where one is not taken. -/
def runOps : List Instr → State → Result
  | [], s => .next s
  | i :: is, s =>
    match exec i s with
    | .next t => runOps is t
    | .fault r => .fault r
    | .refused r => .refused r

/-- `n` times one operation. -/
def runTimes (n : Nat) (i : Instr) (s : State) : Result := runOps (List.replicate n i) s

/-- Quiescent: no pending flag, so no ISR step is enabled (60_exceptions.md R169). -/
def State.quiescent (s : State) : Bool := !s.zcF && !s.povfF && !s.mcmpF

/-- PROMPT_SERVICE (60_exceptions.md R160), a premise on the environment: at every ENV step no flag is pending. -/
def promptService : List Instr → State → Prop
  | [], _ => True
  | i :: is, s =>
    (i.agent = .env → s.quiescent = true) ∧
      match exec i s with
      | .next t => promptService is t
      | .fault _ => True
      | .refused _ => True

/-- The service an operation is, if it is one. -/
def Instr.service : Instr → Option Service
  | .svcZc => some .zc
  | .svcPovf => some .povf
  | .svcMcmp => some .mcmp
  | _ => none

/-- Whether the step of an operation is enabled (00_scope.md R12, 60_exceptions.md R157): a service by its flag, every
other step always. -/
def enabled (i : Instr) (s : State) : Bool :=
  match Instr.service i with
  | some v => s.serviceEnabled v
  | none => true

/-- The command an operation performs: a write of a command word to CMD performs that command (40_command_interface.md
R86), every other operation is itself. -/
def performs : Instr → Instr
  | .regWrite idx w =>
    if idx = 0 then
      match decodeCommand w with
      | .ok c => c
      | .error _ => .regWrite idx w
    else .regWrite idx w
  | i => i

/-- Whether the refusal condition of a legal command holds (40_command_interface.md R90). -/
def refusalCondition (i : Instr) (s : State) : Bool :=
  match i with
  | .fdet => s.tblValid || s.fdBusy || s.zcEn
  | .zcen e => e && (!s.tblValid || s.fdBusy)
  | .sstart _ => !s.tblValid
  | .minc => !s.tblValid || decide (s.motorMode = 0)
  | .mdec => !s.tblValid || decide (s.motorMode = 0)
  | _ => false

/-- The outcome codes (60_exceptions.md R151); HANG_FD is a property of a run, the others of a step. -/
inductive OutcomeCode where
  | refusedDecode
  | refusedState
  | faultCmpRange
  | faultShiftRange
  | illTrace
deriving DecidableEq, Repr

/-- The code of a step, if it leaves the normal step (60_exceptions.md R151). -/
def outcomeCode (i : Instr) (s : State) : Option OutcomeCode :=
  match performs i with
  | .reservedOpA _ | .reservedOpB _ | .reservedOpC _ => some .refusedDecode
  | .reservedOpD _ | .reservedOpE _ | .reservedOpF _ => some .refusedDecode
  | .regWrite idx _ => if idx = 0 then some .refusedDecode else none
  | .svcZc =>
    if !s.serviceEnabled .zc then some .illTrace
    else if s.compareSum > s.cfg.cmpMax then some .faultCmpRange
    else none
  | .svcPovf => if s.serviceEnabled .povf then none else some .illTrace
  | .svcMcmp => if s.serviceEnabled .mcmp then none else some .illTrace
  | .minc =>
    if refusalCondition .minc s then some .refusedState
    else if s.motorMode ≠ 5 ∧
        s.shift.toNat + evenUp (motorDelay s.table s.motorMode - motorDelay s.table (levelUp s.motorMode)) > 0xFFFF then
      some .faultShiftRange
    else none
  | i => if i.wf = false then some .refusedDecode else if refusalCondition i s then some .refusedState else none

/-- The invariant of 10_state.md R34 (a), (c), (d), (f) (its (b) is the type of MOTOR_MODE), the legal values of the
W-bit fields (R13), and what R23 and R108 add: ZC_F only under ZC_EN, no measurement once a table is selected, and
FD_PHASE counting only while FD_BUSY. -/
structure State.Inv (s : State) : Prop where
  shiftEven : s.shift.toNat % 2 = 0
  enabledHasTable : s.zcEn = true → s.tblValid = true
  neverBoth : ¬(s.zcEn = true ∧ s.fdBusy = true)
  flagUnderEnable : s.zcF = true → s.zcEn = true
  measuredOnce : s.fdBusy = true → s.tblValid = false
  countingIsBusy : s.fdPhase = .awaitRising → s.fdBusy = true
  tcntPRange : s.tcntP < 2 ^ s.cfg.W
  tcntMRange : s.tcntM < 2 ^ s.cfg.W
  ocrMRange : s.ocrM < 2 ^ s.cfg.W
  pwrIdle : s.pwrOutN = 0b11
  motIdle : s.motOutN = 0b11

/-- How many pulses of a channel a trace holds for one half-cycle. -/
def pulsesIn (ch : Channel) (hc : Nat) (trace : List Pulse) : Nat :=
  trace.countP (fun r => decide (r.ch = ch ∧ r.hc = hc))

/-- How many pulses a scheduler state still allows. -/
def owed : SchedState → Nat
  | .idle => 0
  | .pending => 1

/-- The most power pulses a half-cycle may hold (43_power_scheduler.md R122, R124). -/
def powerBound : ForcePolicy → Nat
  | .replace => 1
  | .additional => 2

/-- What keeps the pulses of every half-cycle bounded: no record is from a later half-cycle, and in the running one the
pulses emitted and the pulse still allowed do not exceed the bound. -/
structure State.PulseInv (s : State) : Prop where
  past : ∀ r ∈ s.trace, r.hc ≤ s.hc
  motorNow : pulsesIn .mot s.hc s.trace + owed s.mstate ≤ 1
  motorAll : ∀ h, pulsesIn .mot h s.trace ≤ 1
  powerNow : pulsesIn .pwr s.hc s.trace + owed s.pstate ≤ powerBound s.cfg.forcePolicy
  powerAll : ∀ h, pulsesIn .pwr h s.trace ≤ powerBound s.cfg.forcePolicy

/-- A good final state of a run: no refused command and no range fault (60_exceptions.md R153, R154). -/
def State.good (s : State) : Bool := !s.refused && !s.fault

end Sys2Proof.Machine
end

