-- ==== Sys2Proof/Certificates/Slice0/Obligations.lean ====
section
/-!
DEFINITION. The statements for the provers. An equation `exec i s = .next (s with …)` says that the operation completes,
every value it writes, and its frame: every field it does not name is unchanged (the block has no memory, 20_memory.md
R50). `exec` takes the parameters from `s.cfg`, so a statement over all states is one over all parameters.
-/

open Sys2Proof Sys2Proof.Machine

/-! ## Host command interface and bus -/

/-- 40_command_interface.md R85: NOP changes nothing, the mark `refused` included. -/
def Obligations.NopChangesNothing : Prop :=
  decode (.cmd 0x0000) = .ok .nop ∧ ∀ s : State, exec .nop s = .next s

/-- A read completes and hands the HOST the register's value; nothing else changes (40_command_interface.md). That State
keeps the value in `rdata` is the model's choice (log entry 6). CMD and the indices 0x8 to 0xF read 0. -/
def Obligations.ReadReturnsTheViewAndChangesNoField : Prop :=
  ∀ (s : State) (idx : RegIdx),
    exec (.regRead idx) s = .next { s with rdata := s.rdata ++ [view s idx] } ∧
    (idx = 0 ∨ 8 ≤ idx.toNat → view s idx = 0)

/-- 10_state.md R29: every bit of STATUS. -/
def Obligations.StatusShowsEachFieldAtItsBit : Prop :=
  ∀ s : State,
    (view s 1).getLsbD 0 = s.zcEn ∧ (view s 1).getLsbD 1 = s.pwrEn ∧ (view s 1).getLsbD 2 = s.motArm ∧
    (view s 1).getLsbD 3 = decide (s.tblSel = .hz50) ∧ (view s 1).getLsbD 4 = s.tblValid ∧
    (view s 1).getLsbD 5 = s.fdBusy ∧ (view s 1).getLsbD 6 = decide (s.fdPhase = .awaitRising) ∧
    (view s 1).getLsbD 7 = decide (s.pstate = .pending) ∧ (view s 1).getLsbD 8 = decide (s.mstate = .pending) ∧
    (view s 1).getLsbD 9 = s.zcF ∧ (view s 1).getLsbD 10 = s.povfF ∧ (view s 1).getLsbD 11 = s.mcmpF ∧
    (view s 1).getLsbD 12 = s.zcLvl ∧
    (view s 1).getLsbD 13 = false ∧ (view s 1).getLsbD 14 = false ∧ (view s 1).getLsbD 15 = false

/-- 10_state.md R30: MODE holds MOTOR_MODE in bits 2:0 and PSM in bit 8; every other bit reads 0. -/
def Obligations.ModeShowsLevelAndPowerMode : Prop :=
  ∀ s : State, (view s 2).toNat = s.motorMode.val + (if s.psm = true then 256 else 0)

/-- 10_state.md R31, R32: SHIFT and FD_COUNT in full, the W-bit registers in bits W-1:0 with the bits above reading 0,
CMD reading 0. The W-bit fields hold W-bit values (R13). -/
def Obligations.ValueRegistersShowTheirFields : Prop :=
  ∀ s : State, view s 0 = 0 ∧ view s 3 = s.shift ∧ view s 7 = s.fdCount ∧
    (s.cfg.W ≤ 16 → s.tcntP < 2 ^ s.cfg.W → s.tcntM < 2 ^ s.cfg.W → s.ocrM < 2 ^ s.cfg.W →
      (view s 4).toNat = s.tcntP ∧ (view s 5).toNat = s.tcntM ∧ (view s 6).toNat = s.ocrM ∧
      ∀ j, s.cfg.W ≤ j → (view s 4).getLsbD j = false ∧ (view s 5).getLsbD j = false ∧ (view s 6).getLsbD j = false)

/-- 30_encoding.md R69 and R70, word by word: a reserved OP, a reserved ARG bit, an illegal level of SSTART. The write
completes, changes no field of the block, and sets the mark; so does each reserved operation itself. -/
def Obligations.RefusedWordsOnlySetTheMark : Prop :=
  (∀ (s : State) (arg : CmdArg),
    exec (.reservedOpA arg) s = .next { s with refused := true } ∧
    exec (.reservedOpB arg) s = .next { s with refused := true } ∧
    exec (.reservedOpC arg) s = .next { s with refused := true } ∧
    exec (.reservedOpD arg) s = .next { s with refused := true } ∧
    exec (.reservedOpE arg) s = .next { s with refused := true } ∧
    exec (.reservedOpF arg) s = .next { s with refused := true }) ∧
  (∀ (s : State) (w : Word),
    10 ≤ (w.extractLsb' 12 4).toNat ∨
    ((w.extractLsb' 12 4).toNat ∈ [0, 1, 6, 7, 8, 9] ∧ w.extractLsb' 0 12 ≠ 0) ∨
    ((w.extractLsb' 12 4).toNat ∈ [2, 3, 4] ∧ w.extractLsb' 1 11 ≠ 0) ∨
    ((w.extractLsb' 12 4).toNat = 5 ∧ (w.extractLsb' 3 9 ≠ 0 ∨ (w.extractLsb' 0 3).toNat ∈ [0, 6, 7])) →
    exec (.regWrite 0 w) s = .next { s with refused := true })

/-- 40_command_interface.md R88, with the `cmd_write` of its dispatch: a write to CMD of a word that decodes to an operation
has exactly that operation's effect in the same step, a word that decodes to nothing sets the mark only, and a write to
any other register changes nothing and is no refusal. -/
def Obligations.RegisterWriteRunsACommandOrIsIgnored : Prop :=
  ∀ (s : State) (val : Word),
    (∀ c : Instr, decodeCommand val = .ok c → exec (.regWrite 0 val) s = exec c s) ∧
    ((∀ c, decodeCommand val ≠ .ok c) → exec (.regWrite 0 val) s = .next { s with refused := true }) ∧
    (∀ idx : RegIdx, idx ≠ 0 → exec (.regWrite idx val) s = .next s)

/-- The table of refusal conditions of 40_command_interface.md, which the spec derives from the commands' rules: under
well-formed parameters a command with a legal operand is refused exactly when its condition holds, and then changes nothing
but the mark; otherwise it completes and leaves the mark as it was. -/
def Obligations.CommandsAreRefusedExactlyOnTheirConditions : Prop :=
  ∀ (s : State) (i : Instr), i.isCommand = true → i.wf = true → s.cfg.wf = true →
    (refusalCondition i s = true → exec i s = .next { s with refused := true }) ∧
    (refusalCondition i s = false → ∃ t, exec i s = .next t ∧ t.refused = s.refused)

/-- A HOST operation emits no
pulse, sets no pending flag, moves no timer and leaves the compare target, the detector's count, the level and the
half-cycle count alone (40_command_interface.md, 42_zero_cross_sync.md, 70_reset_and_hazards.md). -/
def Obligations.HostOperationsTouchNoTimerAndEmitNothing : Prop :=
  ∀ (s t : State) (i : Instr), i.agent = .host → exec i s = .next t →
    t.trace = s.trace ∧ t.hc = s.hc ∧ t.pwrOutN = s.pwrOutN ∧ t.motOutN = s.motOutN ∧
    (t.zcF = true → s.zcF = true) ∧ t.povfF = s.povfF ∧ (t.mcmpF = true → s.mcmpF = true) ∧
    t.tcntP = s.tcntP ∧ t.tcntM = s.tcntM ∧ t.ocrM = s.ocrM ∧
    t.fdCount = s.fdCount ∧ t.zcLvl = s.zcLvl ∧ t.tblSel = s.tblSel ∧ t.tblValid = s.tblValid ∧ t.pstate = s.pstate

/-! ## Encoding -/

/-- 30_encoding.md R68: a word decodes to an operation exactly when it spells a row of the opcode map and, in the SSTART
row, its level is one of 1..5; the operation is that row's; no word spells two rows. -/
def Obligations.DecodeFollowsTheOpcodeMap : Prop :=
  (∀ (w : Word) (c : Instr), decodeCommand w = .ok c →
    ∃ r ∈ opRows, r.spells w = true ∧ r.mnemonic = c.mnemonic) ∧
  (∀ (w : Word) (r : OpRow), r ∈ opRows → r.spells w = true →
    (r.mnemonic = "SSTART" → 1 ≤ (w.extractLsb' 0 3).toNat ∧ (w.extractLsb' 0 3).toNat ≤ 5) →
    ∃ c, decodeCommand w = .ok c ∧ c.mnemonic = r.mnemonic) ∧
  opRows.Pairwise (fun a b => ∀ w, ¬(a.spells w = true ∧ b.spells w = true))

/-- 95_test_vectors.md V-E18: exactly the seventeen words that 30_encoding.md lists spell a command. -/
def Obligations.ExactlySeventeenWordsSpellACommand : Prop :=
  ∀ w : Word, (∃ c, decodeCommand w = .ok c ∧ c.isCommand = true) ↔
    w.toNat ∈ [0x0000, 0x1000, 0x2000, 0x2001, 0x3000, 0x3001, 0x4000, 0x4001, 0x5001, 0x5002, 0x5003, 0x5004, 0x5005,
      0x6000, 0x7000, 0x8000, 0x9000]

/-- Decode of encode is the operation, for every well-formed operation with every operand (30_encoding.md). -/
def Obligations.DecodeOfEncodeIsTheOperation : Prop :=
  ∀ i : Instr, i.wf = true → decode (encode i) = .ok i

/-- Encode of decode is the item, for every item that decodes: each encoding has one meaning; and what decodes is
well-formed (30_encoding.md). -/
def Obligations.EncodeOfDecodeIsTheItem : Prop :=
  ∀ (x : Stim) (i : Instr), decode x = .ok i → encode i = x ∧ i.wf = true

/-- The eight event codes with their agents, and the unused ones, which decode to nothing (30_encoding.md). That a step
which meets an unused code is refused under a name is the model's choice of how it refuses the trace (log entry 7). -/
def Obligations.EventCodesAreThoseOfTheTable : Prop :=
  decode (.event 0x0) = .ok .zcToggle ∧ decode (.event 0x1) = .ok .tickP ∧ decode (.event 0x2) = .ok .tickM ∧
  decode (.event 0x3) = .ok .tickF ∧ decode (.event 0x8) = .ok .svcZc ∧ decode (.event 0x9) = .ok .svcPovf ∧
  decode (.event 0xA) = .ok .svcMcmp ∧ decode (.event 0xF) = .ok .reset ∧
  Instr.agent .zcToggle = .env ∧ Instr.agent .tickP = .env ∧ Instr.agent .tickM = .env ∧ Instr.agent .tickF = .env ∧
  Instr.agent .svcZc = .isr ∧ Instr.agent .svcPovf = .isr ∧ Instr.agent .svcMcmp = .isr ∧ Instr.agent .reset = .env ∧
  ∀ code : EventCode, (4 ≤ code.toNat ∧ code.toNat ≤ 7) ∨ (11 ≤ code.toNat ∧ code.toNat ≤ 14) →
    decode (.event code) = .error .unusedEventCode ∧
    ∀ (s : State) (rest : List Stim), s.inputs = .event code :: rest → step s = .refused .unusedEventCode

/-- Words written out from the opcode map of 30_encoding.md, one or more of every family. -/
def Obligations.SomeWordsDecodeAsTheSpecSays : Prop :=
  decodeCommand 0x2001 = .ok (.zcen true) ∧ decodeCommand 0x3000 = .ok (.pwren false) ∧
  decodeCommand 0x4001 = .ok (.setpsm true) ∧ decodeCommand 0x5003 = .ok (.sstart 3) ∧
  decodeCommand 0x6000 = .ok .arm ∧ decodeCommand 0x9000 = .ok .mdec ∧
  decodeCommand 0xF123 = .ok (.reservedOpF 0x123) ∧
  decodeCommand 0x1800 = .error .reservedArgBit ∧ decodeCommand 0x5006 = .error .illegalLevel

/-- A step takes the next item of the run. An item that decodes is executed by `exec` on the state with that item taken;
a command word that decodes to nothing sets `refused` (40_command_interface.md); with no item to come nothing changes.
The run as a list in State is the model's choice (log entry 5). -/
def Obligations.StepRunsTheDecodedOperation : Prop :=
  ∀ s : State,
    (∀ (x : Stim) (rest : List Stim) (i : Instr), s.inputs = x :: rest → decode x = .ok i →
      step s = exec i { s with inputs := rest }) ∧
    (∀ (w : Word) (rest : List Stim), s.inputs = .cmd w :: rest → (∀ c, decodeCommand w ≠ .ok c) →
      step s = .next { s with inputs := rest, refused := true }) ∧
    (s.inputs = [] → step s = .next s)

/-! ## Frequency detector -/

/-- 41_frequency_detector.md R95. -/
def Obligations.FdetStartsTheMeasurementOrIsRefused : Prop :=
  decode (.cmd 0x1000) = .ok .fdet ∧
  ∀ s : State,
    (s.tblValid = true ∨ s.fdBusy = true ∨ s.zcEn = true → exec .fdet s = .next { s with refused := true }) ∧
    (s.tblValid = false → s.fdBusy = false → s.zcEn = false →
      exec .fdet s = .next { s with fdBusy := true, fdPhase := .awaitFalling })

/-- 41_frequency_detector.md R96, R103 and 42_zero_cross_sync.md R107: the one step of an edge, in its three cases. -/
def Obligations.EdgeStepsTheDetectorAndFlagsTheSynchronizer : Prop :=
  decode (.event 0x0) = .ok .zcToggle ∧
  ∀ s : State,
    (s.fdBusy = true → s.fdPhase = .awaitFalling → s.zcLvl = true →
      exec .zcToggle s = .next { s with
        fdCount := 0, fdPhase := .awaitRising, zcLvl := false, zcF := if s.zcEn = true then true else s.zcF }) ∧
    (s.fdBusy = true → s.fdPhase = .awaitRising → s.zcLvl = false →
      exec .zcToggle s = .next { s with
        tblSel := if 143 < s.fdCount.toNat then .hz50 else .hz60
        tblValid := true
        fdBusy := false
        fdPhase := .awaitFalling
        zcLvl := true
        zcF := if s.zcEn = true then true else s.zcF }) ∧
    (¬(s.fdBusy = true ∧ s.fdPhase = .awaitFalling ∧ s.zcLvl = true) →
      ¬(s.fdBusy = true ∧ s.fdPhase = .awaitRising ∧ s.zcLvl = false) →
      exec .zcToggle s = .next { s with zcLvl := !s.zcLvl, zcF := if s.zcEn = true then true else s.zcF })

/-- 41_frequency_detector.md R97. -/
def Obligations.DetectorTickCountsAndSaturates : Prop :=
  decode (.event 0x3) = .ok .tickF ∧
  ∀ s : State,
    (s.fdBusy = true → s.fdPhase = .awaitRising →
      exec .tickF s = .next { s with fdCount := BitVec.ofNat 16 (min (s.fdCount.toNat + 1) 0xFFFF) }) ∧
    (¬(s.fdBusy = true ∧ s.fdPhase = .awaitRising) → exec .tickF s = .next s)

/-- The measurement as a whole (41_frequency_detector.md, which derives it from its own rules): a falling edge, `n`
detector ticks and a rising edge measure exactly `n`, saturated, and select the 50 Hz table exactly when the measured
value exceeds 143. -/
def Obligations.MeasurementCountsTheTicksBetweenTheEdges : Prop :=
  ∀ (s : State) (n : Nat), s.fdBusy = true → s.fdPhase = .awaitFalling → s.zcLvl = true → s.zcEn = false →
    runOps ([.zcToggle] ++ List.replicate n .tickF ++ [.zcToggle]) s = .next { s with
      fdCount := BitVec.ofNat 16 (min n 0xFFFF)
      tblSel := if 143 < min n 0xFFFF then .hz50 else .hz60
      tblValid := true
      fdBusy := false
      fdPhase := .awaitFalling }

/-- No timeout (41_frequency_detector.md): while no edge and no RESET comes, a running measurement stays running in its
phase, and ZCEN 1 stays refused. -/
def Obligations.MeasurementWaitsForItsEdges : Prop :=
  ∀ (s t : State) (i : Instr), s.fdBusy = true → i ≠ .zcToggle → i ≠ .reset → exec i s = .next t →
    t.fdBusy = true ∧ t.fdPhase = s.fdPhase ∧ exec (.zcen true) t = .next { t with refused := true }

/-- A selection is final (41_frequency_detector.md, 10_state.md): in a state that meets the invariant, once TBL_VALID is
1 no operation but RESET changes TBL_SEL, TBL_VALID or the measured count, and none starts a measurement. -/
def Obligations.SelectionIsFinal : Prop :=
  ∀ (s t : State) (i : Instr), s.Inv → s.tblValid = true → i ≠ .reset → exec i s = .next t →
    t.tblValid = true ∧ t.tblSel = s.tblSel ∧ t.fdCount = s.fdCount ∧ t.fdBusy = false

/-! ## Zero-cross synchronizer -/

/-- 42_zero_cross_sync.md R106. -/
def Obligations.ZcenEnablesDisablesOrIsRefused : Prop :=
  decode (.cmd 0x2001) = .ok (.zcen true) ∧ decode (.cmd 0x2000) = .ok (.zcen false) ∧
  ∀ s : State,
    (s.tblValid = false ∨ s.fdBusy = true → exec (.zcen true) s = .next { s with refused := true }) ∧
    (s.tblValid = true → s.fdBusy = false → exec (.zcen true) s = .next { s with zcEn := true }) ∧
    exec (.zcen false) s = .next { s with zcEn := false, zcF := false }

/-- The zero-cross service (42_zero_cross_sync.md), under the well-formed parameters that 00_scope.md makes a premise: its six
steps and its whole frame. `d` is `T.P[PSM]`, `c` the exact compare sum. That the 16-bit subtraction wraps at SHIFT = 1, which
no reachable state has, is the model's choice (log entry 12). -/
def Obligations.ZeroCrossServiceDoesItsSixSteps : Prop :=
  decode (.event 0x8) = .ok .svcZc ∧
  ∀ (s : State) (T : PhaseTable) (d c : Nat),
    s.cfg.wf = true → s.zcF = true →
    T = (if s.tblSel = .hz50 then s.cfg.tbl50 else s.cfg.tbl60) →
    d = (if s.psm = true then T.P[1] else T.P[0]) →
    c = T.D[s.motorMode] + s.shift.toNat →
    exec .svcZc s = .next { s with
      hc := s.hc + 1
      zcF := false
      tcntM := 0
      mstate := .pending
      tcntP := 2 ^ s.cfg.W - d
      ocrM := c % 2 ^ s.cfg.W
      fault := if c > 2 ^ s.cfg.W - 1 then true else s.fault
      shift := if s.shift = 0 then 0 else s.shift - 2
      pstate := if s.psm = true ∧ s.cfg.forcePolicy = .replace then .idle else .pending
      trace := if s.psm = true ∧ s.pwrEn = true then s.trace ++ [⟨.pwr, s.hc + 1, 2 ^ s.cfg.W - d, 0⟩] else s.trace
      pwrOutN := if s.psm = true ∧ s.pwrEn = true then 0b11 else s.pwrOutN }

/-- 60_exceptions.md R157: with no order imposed, the default, each service has its step exactly when its flag is 1. -/
def Obligations.ServicesRunExactlyWhenEnabled : Prop :=
  ∀ s : State, s.cfg.serviceOrder = .unconstrained →
    ((∃ t, exec .svcZc s = .next t) ↔ s.zcF = true) ∧
    ((∃ t, exec .svcPovf s = .next t) ↔ s.povfF = true) ∧
    ((∃ t, exec .svcMcmp s = .next t) ↔ s.mcmpF = true)

/-- Merged edges (70_reset_and_hazards.md): two edges before their service give one service and one half-cycle. That the
second service, which is not enabled, is refused under a name is the model's choice (log entry 7). -/
def Obligations.TwoEdgesBeforeServiceGiveOneHalfCycle : Prop :=
  ∀ s : State, s.zcEn = true → s.cfg.wf = true →
    ∃ t, runOps [.zcToggle, .zcToggle, .svcZc] s = .next t ∧ t.hc = s.hc + 1 ∧ t.zcF = false ∧ t.zcLvl = s.zcLvl ∧
      exec .svcZc t = .refused .serviceNotEnabled

/-! ## Power-pulse scheduler -/

/-- 43_power_scheduler.md R116, R117: each command writes its one bit, in every state, and nothing else. -/
def Obligations.PwrenAndSetpsmWriteOnlyTheirBit : Prop :=
  decode (.cmd 0x3001) = .ok (.pwren true) ∧ decode (.cmd 0x3000) = .ok (.pwren false) ∧
  decode (.cmd 0x4001) = .ok (.setpsm true) ∧ decode (.cmd 0x4000) = .ok (.setpsm false) ∧
  ∀ (s : State) (b : Bool),
    exec (.pwren b) s = .next { s with pwrEn := b } ∧ exec (.setpsm b) s = .next { s with psm := b }

/-- One power tick (43_power_scheduler.md; that overflow is the wrap to 0 is marked there as general knowledge: log entry
17). -/
def Obligations.PowerTickCountsAndFlagsTheWrap : Prop :=
  decode (.event 0x1) = .ok .tickP ∧
  ∀ s : State, exec .tickP s = .next { s with
    tcntP := (s.tcntP + 1) % 2 ^ s.cfg.W
    povfF := if (s.tcntP + 1) % 2 ^ s.cfg.W = 0 then true else s.povfF }

/-- 43_power_scheduler.md R121: what the enabled service does. -/
def Obligations.OverflowServiceEmitsOnlyFromPending : Prop :=
  decode (.event 0x9) = .ok .svcPovf ∧
  ∀ s : State, s.serviceEnabled .povf = true →
    (s.pstate = .pending → s.pwrEn = true →
      exec .svcPovf s = .next { s with
        povfF := false
        trace := s.trace ++ [⟨.pwr, s.hc, s.tcntP, s.tcntM⟩]
        pwrOutN := 0b11
        pstate := .idle }) ∧
    (s.pstate = .pending → s.pwrEn = false → exec .svcPovf s = .next { s with povfF := false, pstate := .idle }) ∧
    (s.pstate = .idle → exec .svcPovf s = .next { s with povfF := false })

/-- The countdown (43_power_scheduler.md, whose reading of "overflow" as the wrap is marked as general knowledge, log entry 17):
loaded with `2^W - d` for `1 ≤ d ≤ CMP_MAX`, the counter overflows on exactly the `d`-th tick. -/
def Obligations.CountdownOverflowsOnExactlyTheDthTick : Prop :=
  ∀ (s : State) (d : Nat), 1 ≤ d → d ≤ s.cfg.cmpMax → s.tcntP = 2 ^ s.cfg.W - d → s.povfF = false →
    (∀ n, n < d → runTimes n .tickP s = .next { s with tcntP := 2 ^ s.cfg.W - d + n }) ∧
    runTimes d .tickP s = .next { s with tcntP := 0, povfF := true }

/-- The timed power pulse (43_power_scheduler.md), in standby, and with PSM = 1 under both policies. With PWR_EN = 1 and `d`
the delay `P[PSM]`, an edge service and fewer than `d` ticks leave no overflow pending and record only the pulse the service
forces; on exactly the `d`-th tick the overflow service adds one record, with TCNT_P = 0, except with PSM = 1 under REPLACE,
where it adds none. That the overflow is the wrap to 0 is general knowledge (log entry 17). -/
def Obligations.TimedPowerPulseComesAtItsDelay : Prop :=
  ∀ (s : State) (d : Nat) (forced : List Pulse),
    s.cfg.wf = true → s.zcF = true → s.pwrEn = true → s.povfF = false → d = powerDelay s.table s.psm →
    forced = (if s.psm = true then [⟨.pwr, s.hc + 1, 2 ^ s.cfg.W - d, 0⟩] else []) →
    (∀ n, n < d → ∃ t, runOps ([.svcZc] ++ List.replicate n .tickP) s = .next t ∧ t.povfF = false ∧
      t.trace = s.trace ++ forced) ∧
    ∃ t, runOps ([.svcZc] ++ List.replicate d .tickP ++ [.svcPovf]) s = .next t ∧
      t.trace = s.trace ++ forced ++
        (if s.psm = true ∧ s.cfg.forcePolicy = .replace then [] else [⟨.pwr, s.hc + 1, 0, 0⟩]) ∧
      t.pstate = .idle ∧ t.povfF = false

/-! ## Motor-pulse scheduler -/

/-- 44_motor_scheduler.md R127. -/
def Obligations.ArmDiscardsTheStaleMatchOnce : Prop :=
  decode (.cmd 0x6000) = .ok .arm ∧
  ∀ s : State,
    (s.motArm = false → exec .arm s = .next { s with motArm := true, mcmpF := false, mstate := .idle }) ∧
    (s.motArm = true → exec .arm s = .next s)

/-- 44_motor_scheduler.md R128. -/
def Obligations.DisarmClearsTheEnableOnly : Prop :=
  decode (.cmd 0x7000) = .ok .disarm ∧ ∀ s : State, exec .disarm s = .next { s with motArm := false }

/-- One motor tick (44_motor_scheduler.md; that the match is tested on the new count is marked there as general
knowledge: log entry 17). -/
def Obligations.MotorTickCountsAndFlagsTheMatch : Prop :=
  decode (.event 0x2) = .ok .tickM ∧
  ∀ s : State, exec .tickM s = .next { s with
    tcntM := (s.tcntM + 1) % 2 ^ s.cfg.W
    mcmpF := if (s.tcntM + 1) % 2 ^ s.cfg.W = s.ocrM then true else s.mcmpF }

/-- 44_motor_scheduler.md R131: what the enabled service does. -/
def Obligations.MatchServiceEmitsOnlyArmedAndPending : Prop :=
  decode (.event 0xA) = .ok .svcMcmp ∧
  ∀ s : State, s.serviceEnabled .mcmp = true →
    (s.motArm = true → s.mstate = .pending →
      exec .svcMcmp s = .next { s with
        mcmpF := false
        trace := s.trace ++ [⟨.mot, s.hc, s.tcntP, s.tcntM⟩]
        motOutN := 0b11
        ocrM := 2 ^ s.cfg.W - 1
        mstate := .idle }) ∧
    (s.motArm = true → s.mstate = .idle →
      exec .svcMcmp s = .next { s with mcmpF := false, ocrM := 2 ^ s.cfg.W - 1, mstate := .idle }) ∧
    (s.motArm = false → exec .svcMcmp s = .next { s with mcmpF := false })

/-- The compare (44_motor_scheduler.md, tested after the increment: general knowledge, log entry 17): from TCNT_M = 0
the match comes on exactly the `c`-th tick for `1 ≤ c ≤ CMP_MAX`, and on the `2^W`-th for `c = 0`. -/
def Obligations.MatchComesOnExactlyTheCthTick : Prop :=
  ∀ s : State, s.tcntM = 0 → s.mcmpF = false → s.ocrM < 2 ^ s.cfg.W →
    (∀ n, n < (if s.ocrM = 0 then 2 ^ s.cfg.W else s.ocrM) → runTimes n .tickM s = .next { s with tcntM := n }) ∧
    runTimes (if s.ocrM = 0 then 2 ^ s.cfg.W else s.ocrM) .tickM s = .next { s with tcntM := s.ocrM, mcmpF := true }

/-- The motor phase (44_motor_scheduler.md): armed, with the compare sum `c` within CMP_MAX and no stale match, the motor
pulse of the half-cycle an edge service opens comes on exactly the `c`-th tick after it, and its record carries `c`;
before that tick no match is pending. Under FIXED the service waits for no other flag. That the match is tested on the new
count, so that it falls on the `c`-th tick, is general knowledge (log entry 17). -/
def Obligations.MotorPulseComesAtTheCompareDelay : Prop :=
  ∀ (s : State) (c : Nat), s.cfg.wf = true → s.zcF = true → s.mcmpF = false → s.povfF = false → s.motArm = true →
    c = motorDelay s.table s.motorMode + s.shift.toNat → c ≤ s.cfg.cmpMax →
    ∃ u, exec .svcZc s = .next u ∧ u.mcmpF = false ∧
      (∀ n, n < c → runTimes n .tickM u = .next { u with tcntM := n }) ∧
      runOps (List.replicate c .tickM ++ [.svcMcmp]) u = .next { u with
        tcntM := c
        ocrM := s.cfg.cmpMax
        mstate := .idle
        trace := u.trace ++ [⟨.mot, s.hc + 1, u.tcntP, c⟩]
        motOutN := 0b11 }

/-- Stale match (70_reset_and_hazards.md): a match flag left from the previous half-cycle, serviced after the edge
service, fires the motor pulse at once, with TCNT_M = 0, and uses up the half-cycle's pulse. -/
def Obligations.StaleMatchFiresAtTheZeroCrossing : Prop :=
  ∀ s : State, s.cfg.wf = true → s.cfg.serviceOrder = .unconstrained → s.zcF = true → s.mcmpF = true → s.motArm = true →
    ∃ t, runOps [.svcZc, .svcMcmp] s = .next t ∧ t.mstate = .idle ∧ t.mcmpF = false ∧
      t.trace.getLast? = some ⟨.mot, s.hc + 1, t.tcntP, 0⟩

/-! ## Soft-start ramp -/

/-- 45_soft_start.md R139, under well-formed tables: the level and the even span, or the refusal. -/
def Obligations.SstartSetsTheLevelAndTheEvenSpan : Prop :=
  (∀ m : BitVec 3, 1 ≤ m.toNat ∧ m.toNat ≤ 5 → decode (.cmd (0x5000 ||| m.setWidth 16)) = .ok (.sstart m)) ∧
  ∀ (s : State) (m : BitVec 3) (l : Fin 6) (a : Nat), l.val = m.toNat → 1 ≤ m.toNat ∧ m.toNat ≤ 5 →
    (s.tblValid = false → exec (.sstart m) s = .next { s with refused := true }) ∧
    (s.tblValid = true → s.cfg.wf = true → a = motorDelay s.table 0 - motorDelay s.table l →
      exec (.sstart m) s = .next { s with motorMode := l, shift := BitVec.ofNat 16 (a + a % 2) } ∧
      a + a % 2 ≤ s.cfg.cmpMax - 1 ∧ 0 < a)

/-- 45_soft_start.md R140, under well-formed tables. `l` and `k` are the levels `m` and `m + 1`. -/
def Obligations.MincRebasesOntoTheNextLevel : Prop :=
  decode (.cmd 0x8000) = .ok .minc ∧
  ∀ s : State,
    (s.tblValid = false ∨ s.motorMode.val = 0 → exec .minc s = .next { s with refused := true }) ∧
    (s.tblValid = true → s.motorMode.val = 5 → exec .minc s = .next s) ∧
    (∀ (k : Fin 6) (a r : Nat), s.tblValid = true → s.cfg.wf = true → 1 ≤ s.motorMode.val → k.val = s.motorMode.val + 1 →
      a = motorDelay s.table s.motorMode - motorDelay s.table k → r = s.shift.toNat + (a + a % 2) →
      exec .minc s = .next { s with
        motorMode := k
        shift := BitVec.ofNat 16 (r % 2 ^ 16)
        fault := if r > 0xFFFF then true else s.fault })

/-- 45_soft_start.md R141, under well-formed tables. `k` is the level `m - 1`. The subtraction of the correction never
wraps. -/
def Obligations.MdecRebasesOnlyWhileMidRamp : Prop :=
  decode (.cmd 0x9000) = .ok .mdec ∧
  ∀ s : State,
    (s.tblValid = false ∨ s.motorMode.val = 0 → exec .mdec s = .next { s with refused := true }) ∧
    (s.tblValid = true → s.motorMode.val = 1 → exec .mdec s = .next s) ∧
    (∀ (k : Fin 6) (a : Nat), s.tblValid = true → s.cfg.wf = true → s.motorMode.val = k.val + 1 → 1 ≤ k.val →
      a = motorDelay s.table k - motorDelay s.table s.motorMode →
      (a < s.shift.toNat → exec .mdec s = .next { s with
        motorMode := k, shift := BitVec.ofNat 16 (s.shift.toNat - (a + a % 2)) } ∧ a + a % 2 ≤ s.shift.toNat) ∧
      (s.shift.toNat ≤ a → exec .mdec s = .next { s with motorMode := k }))

/-- Ramp length (45_soft_start.md): over `k` half-cycles, each an edge and its service, SHIFT is `S - 2k` down to 0 and
`hc` counts them; no other operation falls between. -/
def Obligations.RampUnwindsByTwoEachHalfCycle : Prop :=
  ∀ (s : State) (k : Nat), s.Inv → s.zcEn = true →
    ∃ t, runOps (List.replicate k [Instr.zcToggle, Instr.svcZc]).flatten s = .next t ∧
      t.shift.toNat = s.shift.toNat - 2 * k ∧ t.hc = s.hc + k ∧ t.motorMode = s.motorMode

/-- What a level change does to the compare target of the next edge service (45_soft_start.md; 70_reset_and_hazards.md for the
jump). A MINC whose result fits the 16-bit field and an MDEC with the correction keep it up to the parity of the delta; an
MDEC with SHIFT at most the delta raises it by the whole delta; a MINC whose result does not fit loses 2^16. A mark `fault`
set before plays no part. -/
def Obligations.LevelChangesRebaseTheCompareTarget : Prop :=
  ∀ (s t : State) (a : Nat), s.cfg.wf = true → s.tblValid = true →
    (1 ≤ s.motorMode.val → s.motorMode.val ≤ 4 → exec .minc s = .next t →
      a = motorDelay s.table s.motorMode - motorDelay t.table t.motorMode →
      t.motorMode.val = s.motorMode.val + 1 ∧
      (s.shift.toNat + (a + a % 2) ≤ 0xFFFF → t.compareSum = s.compareSum + a % 2) ∧
      (0xFFFF < s.shift.toNat + (a + a % 2) → t.compareSum + 2 ^ 16 = s.compareSum + a % 2)) ∧
    (2 ≤ s.motorMode.val → exec .mdec s = .next t →
      a = motorDelay t.table t.motorMode - motorDelay s.table s.motorMode →
      t.motorMode.val + 1 = s.motorMode.val ∧
      (a < s.shift.toNat → t.compareSum + a % 2 = s.compareSum) ∧
      (s.shift.toNat ≤ a → t.compareSum = s.compareSum + a))

/-- Round trip (45_soft_start.md): mid-ramp, a level up and a level down with nothing between return the whole state. The
premise on the sum says that MINC's result fits the 16-bit field. -/
def Obligations.LevelUpThenDownMidRampReturnsTheState : Prop :=
  ∀ s : State, s.cfg.wf = true → s.tblValid = true → 1 ≤ s.motorMode.val → s.motorMode.val ≤ 4 →
    0 < s.shift.toNat → s.shift.toNat + s.cfg.cmpMax ≤ 0xFFFF →
    runOps [.minc, .mdec] s = .next s

/-- Re-arming (45_soft_start.md): SSTART `m` then ARM sets the same level and shift whatever they were, and ends with the
scheduler armed. -/
def Obligations.ReopeningTheFilterRestartsTheSameRamp : Prop :=
  ∀ (s : State) (m : BitVec 3) (l : Fin 6), s.cfg.wf = true → s.tblValid = true → l.val = m.toNat → 1 ≤ l.val → l.val ≤ 5 →
    ∃ t, runOps [.sstart m, .arm] s = .next t ∧ t.motArm = true ∧ t.motorMode = l ∧
      t.shift.toNat = evenUp (motorDelay s.table 0 - motorDelay s.table l) ∧
      (s.motArm = false → t.mstate = .idle ∧ t.mcmpF = false) ∧
      (t.compareSum = motorDelay s.table 0 ∨ t.compareSum = motorDelay s.table 0 + 1)

/-! ## Reset -/

/-- 70_reset_and_hazards.md R175 with 10_state.md R33: RESET completes in every state and gives every field of the block
its reset value, the model-only fields included. -/
def Obligations.ResetGivesEveryFieldItsResetValue : Prop :=
  decode (.event 0xF) = .ok .reset ∧
  ∀ s : State, ∃ t, exec .reset s = .next t ∧
    t.psm = false ∧ t.motorMode = 0 ∧ t.shift = 0 ∧ t.motArm = false ∧ t.zcEn = false ∧ t.pwrEn = false ∧
    t.tblSel = .hz60 ∧ t.tblValid = false ∧ t.fdBusy = false ∧ t.fdPhase = .awaitFalling ∧ t.fdCount = 0 ∧
    t.tcntP = 0 ∧ t.tcntM = 0 ∧ t.ocrM = 2 ^ s.cfg.W - 1 ∧ t.zcF = false ∧ t.povfF = false ∧ t.mcmpF = false ∧
    t.pstate = .idle ∧ t.mstate = .idle ∧ t.zcLvl = s.cfg.zcLvl0 ∧ t.pwrOutN = 0b11 ∧ t.motOutN = 0b11 ∧
    t.hc = 0 ∧ t.trace = [] ∧ t.refused = false ∧ t.fault = false

/-- 10_state.md R33: the state after reset, field by field, under its own parameters. -/
def Obligations.StateAfterResetHoldsTheResetValues : Prop :=
  State.reset.ocrM = 2 ^ State.reset.cfg.W - 1 ∧ State.reset.zcLvl = State.reset.cfg.zcLvl0 ∧
  State.reset.psm = false ∧ State.reset.motorMode = 0 ∧ State.reset.shift = 0 ∧ State.reset.motArm = false ∧
  State.reset.zcEn = false ∧ State.reset.pwrEn = false ∧ State.reset.tblSel = .hz60 ∧ State.reset.tblValid = false ∧
  State.reset.fdBusy = false ∧ State.reset.fdPhase = .awaitFalling ∧ State.reset.fdCount = 0 ∧
  State.reset.tcntP = 0 ∧ State.reset.tcntM = 0 ∧ State.reset.zcF = false ∧
  State.reset.povfF = false ∧ State.reset.mcmpF = false ∧
  State.reset.pstate = .idle ∧ State.reset.mstate = .idle ∧ State.reset.pwrOutN = 0b11 ∧ State.reset.motOutN = 0b11 ∧
  State.reset.hc = 0 ∧ State.reset.trace = [] ∧ State.reset.refused = false ∧ State.reset.fault = false

/-! ## Whole machine -/

/-- The invariant holds after reset, and no pulse is recorded. -/
def Obligations.InvariantHoldsAfterReset : Prop := State.reset.Inv ∧ State.reset.PulseInv

/-- 10_state.md's invariants, kept by every step of every agent, whatever the parameters. -/
def Obligations.EveryStepKeepsTheInvariant : Prop :=
  ∀ s t : State, s.Inv → step s = .next t → t.Inv

/-- At most one motor pulse in every half-cycle, and at most one power pulse (two under ADDITIONAL), whatever the order
of ticks, services and commands (43_power_scheduler.md, 44_motor_scheduler.md): kept by every step. -/
def Obligations.EveryStepKeepsThePulseBound : Prop :=
  ∀ s t : State, s.PulseInv → step s = .next t → t.PulseInv

/-- Within a half-cycle the pulses emitted and still allowed never grow, on either channel; and an edge service that
forces no pulse, or replaces the timed one, allows one (43_power_scheduler.md). -/
def Obligations.PulseAllowanceNeverGrowsWithinAHalfCycle : Prop :=
  (∀ (s t : State) (i : Instr), i ≠ .svcZc → i ≠ .reset → exec i s = .next t →
    t.hc = s.hc ∧
    pulsesIn .pwr t.hc t.trace + owed t.pstate ≤ pulsesIn .pwr s.hc s.trace + owed s.pstate ∧
    pulsesIn .mot t.hc t.trace + owed t.mstate ≤ pulsesIn .mot s.hc s.trace + owed s.mstate) ∧
  (∀ s t : State, (∀ r ∈ s.trace, r.hc ≤ s.hc) → exec .svcZc s = .next t →
    pulsesIn .mot t.hc t.trace + owed t.mstate = 1 ∧
    (s.psm = false ∨ s.cfg.forcePolicy = .replace → pulsesIn .pwr t.hc t.trace + owed t.pstate ≤ 1))

/-- While PWR_EN = 0 no power pulse is emitted, and while MOT_ARM = 0 no motor pulse is (10_state.md, 44_motor_scheduler.md,
70_reset_and_hazards.md). -/
def Obligations.DisabledSchedulersEmitNothing : Prop :=
  ∀ (s t : State) (i : Instr), i ≠ .reset → exec i s = .next t →
    (s.pwrEn = false → ∀ h, pulsesIn .pwr h t.trace = pulsesIn .pwr h s.trace) ∧
    (s.motArm = false → ∀ h, pulsesIn .mot h t.trace = pulsesIn .mot h s.trace) ∧
    (s.pwrEn = false → s.motArm = false → t.trace = s.trace)

/-- Under well-formed parameters every enabled step completes: the block never halts (60_exceptions.md). -/
def Obligations.EveryEnabledStepCompletes : Prop :=
  ∀ (s : State) (i : Instr), s.cfg.wf = true → enabled i s = true → ∃ t, exec i s = .next t

/-- The only operations `exec` refuses are services that are not enabled and, outside the spec's tables, the level commands
SSTART, MINC and MDEC, given as such or by a write of their word to CMD (60_exceptions.md, 93_implementation_defined.md);
there is no fault. Under the assumed order FIXED only the highest pending flag's service is enabled. Refusing the step for
the trace, rejecting such tables, and offering FIXED are the model's choices (log entries 7, 9 and 15). -/
def Obligations.OnlyDisabledServicesAndForeignTablesAreRefused : Prop :=
  (∀ (s : State) (i : Instr),
    (∀ f, exec i s ≠ .fault f) ∧
    ∀ r, exec i s = .refused r →
      (r = .serviceNotEnabled ∧ i.agent = .isr ∧ enabled i s = false) ∨
      (r = .tableOutsideSpec ∧ s.cfg.wf = false ∧
        ((∃ m, performs i = .sstart m) ∨ performs i = .minc ∨ performs i = .mdec))) ∧
  (∀ s : State, s.quiescent = true →
    exec .svcZc s = .refused .serviceNotEnabled ∧ exec .svcPovf s = .refused .serviceNotEnabled ∧
    exec .svcMcmp s = .refused .serviceNotEnabled) ∧
  (∀ s : State, s.cfg.serviceOrder = .fixed →
    ((∃ t, exec .svcZc s = .next t) ↔ s.zcF = true) ∧
    ((∃ t, exec .svcPovf s = .next t) ↔ s.povfF = true ∧ s.zcF = false) ∧
    ((∃ t, exec .svcMcmp s = .next t) ↔ s.mcmpF = true ∧ s.zcF = false ∧ s.povfF = false))

/-- The marks are sticky, and only the refusals and the range faults set them (60_exceptions.md). That SSTART with an illegal
level, which no word spells, is refused as the word is, is the model's choice (log entry 16). -/
def Obligations.MarksAreStickyAndSetOnlyByTheirCodes : Prop :=
  ∀ (s t : State) (i : Instr), s.cfg.wf = true → i ≠ .reset → exec i s = .next t →
    t.refused = (s.refused || outcomeCode i s == some .refusedDecode || outcomeCode i s == some .refusedState) ∧
    t.fault = (s.fault || outcomeCode i s == some .faultCmpRange || outcomeCode i s == some .faultShiftRange)

/-- No operation, RESET included, writes the parameters or the run to come, and only a read changes what the HOST has read.
All three fields are the model's own choices: the parameters, which 00_scope.md makes arguments, as `cfg` in State (log
entry 1); the coming steps as the list `inputs`, which RESET keeps (log entry 5); and the values returned to the HOST as the
list `rdata`, which RESET keeps (log entry 6). -/
def Obligations.ParametersAndScheduleAreNeverWritten : Prop :=
  ∀ (s t : State) (i : Instr), exec i s = .next t →
    t.cfg = s.cfg ∧ t.inputs = s.inputs ∧ ((∀ idx, i ≠ .regRead idx) → t.rdata = s.rdata)

/-- Who writes the shared ControllerState and the enables (10_state.md): only the named commands and services, and RESET. -/
def Obligations.ControllerStateHasOnlyItsWriters : Prop :=
  ∀ (s t : State) (i : Instr), i ≠ .reset → exec i s = .next t →
    (t.psm ≠ s.psm → ∃ p, performs i = .setpsm p) ∧
    (t.motorMode ≠ s.motorMode → (∃ m, performs i = .sstart m) ∨ performs i = .minc ∨ performs i = .mdec) ∧
    (t.shift ≠ s.shift → (∃ m, performs i = .sstart m) ∨ performs i = .minc ∨ performs i = .mdec ∨ i = .svcZc) ∧
    (t.motArm ≠ s.motArm → performs i = .arm ∨ performs i = .disarm) ∧
    (t.zcEn ≠ s.zcEn → ∃ e, performs i = .zcen e) ∧
    (t.pwrEn ≠ s.pwrEn → ∃ e, performs i = .pwren e)

/-- Who sets and who clears each pending flag (60_exceptions.md, the table of interrupt sources). That POVF_F comes with the
wrap to 0 and MCMP_F with the new count is general knowledge (log entry 17). -/
def Obligations.PendingFlagsHaveOnlyTheirSettersAndClearers : Prop :=
  ∀ (s t : State) (i : Instr), i ≠ .reset → exec i s = .next t →
    (s.zcF = false → t.zcF = true → i = .zcToggle ∧ s.zcEn = true) ∧
    (s.zcF = true → t.zcF = false → i = .svcZc ∨ performs i = .zcen false) ∧
    (s.povfF = false → t.povfF = true → i = .tickP ∧ t.tcntP = 0) ∧
    (s.povfF = true → t.povfF = false → i = .svcPovf) ∧
    (s.mcmpF = false → t.mcmpF = true → i = .tickM ∧ t.tcntM = s.ocrM) ∧
    (s.mcmpF = true → t.mcmpF = false → i = .svcMcmp ∨ (performs i = .arm ∧ s.motArm = false))

/-- Once the motor level is one of 1..5 it stays so until RESET, and every SSTART that is not refused makes it so
(10_state.md). -/
def Obligations.LevelStaysActiveAfterSstart : Prop :=
  ∀ (s t : State) (i : Instr), i ≠ .reset → exec i s = .next t →
    (s.motorMode ≠ 0 → t.motorMode ≠ 0) ∧
    (∀ m, i = .sstart m → i.wf = true → s.tblValid = true → t.motorMode.val = m.toNat)

/-- The two timer services commute: with both flags pending and no order imposed, either order completes, and the ends
differ at most in the order of the two pulse records (60_exceptions.md). -/
def Obligations.TimerServicesCommuteUpToTraceOrder : Prop :=
  ∀ s : State, s.cfg.serviceOrder = .unconstrained → s.povfF = true → s.mcmpF = true →
    ∃ t u, runOps [.svcPovf, .svcMcmp] s = .next t ∧ runOps [.svcMcmp, .svcPovf] s = .next u ∧
      u = { t with trace := u.trace } ∧ t.trace.Perm u.trace ∧ t.quiescent = !s.zcF
end

