-- ==== Sys2Proof/Laws/Decode.lean ====
section
/-!
SUPPORT. What the field extraction and the decoder of command words can do, said once.
-/

namespace Sys2Proof

/-- A word is its OP and its ARG (30_encoding.md R66). -/
theorem cmdWord_fields (w : Word) : cmdWord (cmdOp w) (cmdArg w) = w := by
  apply BitVec.eq_of_toNat_eq
  have := w.isLt
  simp only [cmdWord, cmdOp, cmdArg, BitVec.toNat_append, BitVec.extractLsb'_toNat, Nat.shiftRight_zero]
  rw [← Nat.shiftLeft_add_eq_or_of_lt (by omega), Nat.shiftLeft_eq, Nat.shiftRight_eq_div_pow]
  omega

@[simp] theorem cmdOp_cmdWord (op : BitVec 4) (arg : CmdArg) : cmdOp (cmdWord op arg) = op := by
  apply BitVec.eq_of_toNat_eq
  have := op.isLt
  have := arg.isLt
  simp only [cmdWord, cmdOp, BitVec.toNat_append, BitVec.extractLsb'_toNat]
  rw [← Nat.shiftLeft_add_eq_or_of_lt (by omega), Nat.shiftLeft_eq, Nat.shiftRight_eq_div_pow]
  omega

@[simp] theorem cmdArg_cmdWord (op : BitVec 4) (arg : CmdArg) : cmdArg (cmdWord op arg) = arg := by
  apply BitVec.eq_of_toNat_eq
  have := op.isLt
  have := arg.isLt
  simp only [cmdWord, cmdArg, BitVec.toNat_append, BitVec.extractLsb'_toNat, Nat.shiftRight_zero]
  rw [← Nat.shiftLeft_add_eq_or_of_lt (by omega), Nat.shiftLeft_eq]
  omega

/-- Decoding a word made of two fields is decoding the fields. -/
@[simp] theorem decodeCommand_cmdWord (op : BitVec 4) (arg : CmdArg) :
    decodeCommand (cmdWord op arg) = decodeFields op arg := by simp [decodeCommand]

/-- Every word is refused by one of the two names of 30_encoding.md R70, never as an event. -/
theorem decodeFields_error {op : BitVec 4} {arg : CmdArg} {e : DecodeReject} (h : decodeFields op arg = .error e) :
    e = .reservedArgBit ∨ e = .illegalLevel := by
  unfold decodeFields noOperand bitOperand levelOperand at h
  split at h <;> (try split at h) <;> (try split at h) <;> cases h <;> simp

/-- What a word decodes to is an operation of the HOST, and not a bus operation. -/
theorem decodeFields_ok_host {op : BitVec 4} {arg : CmdArg} {i : Instr} (h : decodeFields op arg = .ok i) :
    i.agent = .host ∧ (∀ idx, i ≠ .regRead idx) ∧ ∀ idx v, i ≠ .regWrite idx v := by
  unfold decodeFields noOperand bitOperand levelOperand at h
  split at h <;> (try split at h) <;> (try split at h) <;> cases h <;>
    refine ⟨rfl, ?_, ?_⟩ <;> intros <;> exact Instr.noConfusion

end Sys2Proof
end

