-- ==== Sys2Proof/Laws/State.lean ====
section
/-!
SUPPORT. One lemma per field per named update of State, so that no proof unfolds a record update.
-/

namespace Sys2Proof.Machine

/-! `State.refuse` -/

@[simp] theorem State.refuse_cfg (s : State) : (s.refuse).cfg = s.cfg := rfl
@[simp] theorem State.refuse_psm (s : State) : (s.refuse).psm = s.psm := rfl
@[simp] theorem State.refuse_motorMode (s : State) : (s.refuse).motorMode = s.motorMode := rfl
@[simp] theorem State.refuse_shift (s : State) : (s.refuse).shift = s.shift := rfl
@[simp] theorem State.refuse_motArm (s : State) : (s.refuse).motArm = s.motArm := rfl
@[simp] theorem State.refuse_zcEn (s : State) : (s.refuse).zcEn = s.zcEn := rfl
@[simp] theorem State.refuse_pwrEn (s : State) : (s.refuse).pwrEn = s.pwrEn := rfl
@[simp] theorem State.refuse_tblSel (s : State) : (s.refuse).tblSel = s.tblSel := rfl
@[simp] theorem State.refuse_tblValid (s : State) : (s.refuse).tblValid = s.tblValid := rfl
@[simp] theorem State.refuse_fdBusy (s : State) : (s.refuse).fdBusy = s.fdBusy := rfl
@[simp] theorem State.refuse_fdPhase (s : State) : (s.refuse).fdPhase = s.fdPhase := rfl
@[simp] theorem State.refuse_fdCount (s : State) : (s.refuse).fdCount = s.fdCount := rfl
@[simp] theorem State.refuse_tcntP (s : State) : (s.refuse).tcntP = s.tcntP := rfl
@[simp] theorem State.refuse_tcntM (s : State) : (s.refuse).tcntM = s.tcntM := rfl
@[simp] theorem State.refuse_ocrM (s : State) : (s.refuse).ocrM = s.ocrM := rfl
@[simp] theorem State.refuse_zcF (s : State) : (s.refuse).zcF = s.zcF := rfl
@[simp] theorem State.refuse_povfF (s : State) : (s.refuse).povfF = s.povfF := rfl
@[simp] theorem State.refuse_mcmpF (s : State) : (s.refuse).mcmpF = s.mcmpF := rfl
@[simp] theorem State.refuse_pstate (s : State) : (s.refuse).pstate = s.pstate := rfl
@[simp] theorem State.refuse_mstate (s : State) : (s.refuse).mstate = s.mstate := rfl
@[simp] theorem State.refuse_zcLvl (s : State) : (s.refuse).zcLvl = s.zcLvl := rfl
@[simp] theorem State.refuse_pwrOutN (s : State) : (s.refuse).pwrOutN = s.pwrOutN := rfl
@[simp] theorem State.refuse_motOutN (s : State) : (s.refuse).motOutN = s.motOutN := rfl
@[simp] theorem State.refuse_hc (s : State) : (s.refuse).hc = s.hc := rfl
@[simp] theorem State.refuse_trace (s : State) : (s.refuse).trace = s.trace := rfl
@[simp] theorem State.refuse_refused (s : State) : (s.refuse).refused = true := rfl
@[simp] theorem State.refuse_fault (s : State) : (s.refuse).fault = s.fault := rfl
@[simp] theorem State.refuse_inputs (s : State) : (s.refuse).inputs = s.inputs := rfl
@[simp] theorem State.refuse_rdata (s : State) : (s.refuse).rdata = s.rdata := rfl

/-! `State.faultIf` -/

@[simp] theorem State.faultIf_cfg (s : State) (c : Bool) : (s.faultIf c).cfg = s.cfg := rfl
@[simp] theorem State.faultIf_psm (s : State) (c : Bool) : (s.faultIf c).psm = s.psm := rfl
@[simp] theorem State.faultIf_motorMode (s : State) (c : Bool) : (s.faultIf c).motorMode = s.motorMode := rfl
@[simp] theorem State.faultIf_shift (s : State) (c : Bool) : (s.faultIf c).shift = s.shift := rfl
@[simp] theorem State.faultIf_motArm (s : State) (c : Bool) : (s.faultIf c).motArm = s.motArm := rfl
@[simp] theorem State.faultIf_zcEn (s : State) (c : Bool) : (s.faultIf c).zcEn = s.zcEn := rfl
@[simp] theorem State.faultIf_pwrEn (s : State) (c : Bool) : (s.faultIf c).pwrEn = s.pwrEn := rfl
@[simp] theorem State.faultIf_tblSel (s : State) (c : Bool) : (s.faultIf c).tblSel = s.tblSel := rfl
@[simp] theorem State.faultIf_tblValid (s : State) (c : Bool) : (s.faultIf c).tblValid = s.tblValid := rfl
@[simp] theorem State.faultIf_fdBusy (s : State) (c : Bool) : (s.faultIf c).fdBusy = s.fdBusy := rfl
@[simp] theorem State.faultIf_fdPhase (s : State) (c : Bool) : (s.faultIf c).fdPhase = s.fdPhase := rfl
@[simp] theorem State.faultIf_fdCount (s : State) (c : Bool) : (s.faultIf c).fdCount = s.fdCount := rfl
@[simp] theorem State.faultIf_tcntP (s : State) (c : Bool) : (s.faultIf c).tcntP = s.tcntP := rfl
@[simp] theorem State.faultIf_tcntM (s : State) (c : Bool) : (s.faultIf c).tcntM = s.tcntM := rfl
@[simp] theorem State.faultIf_ocrM (s : State) (c : Bool) : (s.faultIf c).ocrM = s.ocrM := rfl
@[simp] theorem State.faultIf_zcF (s : State) (c : Bool) : (s.faultIf c).zcF = s.zcF := rfl
@[simp] theorem State.faultIf_povfF (s : State) (c : Bool) : (s.faultIf c).povfF = s.povfF := rfl
@[simp] theorem State.faultIf_mcmpF (s : State) (c : Bool) : (s.faultIf c).mcmpF = s.mcmpF := rfl
@[simp] theorem State.faultIf_pstate (s : State) (c : Bool) : (s.faultIf c).pstate = s.pstate := rfl
@[simp] theorem State.faultIf_mstate (s : State) (c : Bool) : (s.faultIf c).mstate = s.mstate := rfl
@[simp] theorem State.faultIf_zcLvl (s : State) (c : Bool) : (s.faultIf c).zcLvl = s.zcLvl := rfl
@[simp] theorem State.faultIf_pwrOutN (s : State) (c : Bool) : (s.faultIf c).pwrOutN = s.pwrOutN := rfl
@[simp] theorem State.faultIf_motOutN (s : State) (c : Bool) : (s.faultIf c).motOutN = s.motOutN := rfl
@[simp] theorem State.faultIf_hc (s : State) (c : Bool) : (s.faultIf c).hc = s.hc := rfl
@[simp] theorem State.faultIf_trace (s : State) (c : Bool) : (s.faultIf c).trace = s.trace := rfl
@[simp] theorem State.faultIf_refused (s : State) (c : Bool) : (s.faultIf c).refused = s.refused := rfl
@[simp] theorem State.faultIf_fault (s : State) (c : Bool) : (s.faultIf c).fault = (s.fault || c) := rfl
@[simp] theorem State.faultIf_inputs (s : State) (c : Bool) : (s.faultIf c).inputs = s.inputs := rfl
@[simp] theorem State.faultIf_rdata (s : State) (c : Bool) : (s.faultIf c).rdata = s.rdata := rfl

/-! `State.record` -/

@[simp] theorem State.record_cfg (s : State) (ch : Channel) : (s.record ch).cfg = s.cfg := rfl
@[simp] theorem State.record_psm (s : State) (ch : Channel) : (s.record ch).psm = s.psm := rfl
@[simp] theorem State.record_motorMode (s : State) (ch : Channel) : (s.record ch).motorMode = s.motorMode := rfl
@[simp] theorem State.record_shift (s : State) (ch : Channel) : (s.record ch).shift = s.shift := rfl
@[simp] theorem State.record_motArm (s : State) (ch : Channel) : (s.record ch).motArm = s.motArm := rfl
@[simp] theorem State.record_zcEn (s : State) (ch : Channel) : (s.record ch).zcEn = s.zcEn := rfl
@[simp] theorem State.record_pwrEn (s : State) (ch : Channel) : (s.record ch).pwrEn = s.pwrEn := rfl
@[simp] theorem State.record_tblSel (s : State) (ch : Channel) : (s.record ch).tblSel = s.tblSel := rfl
@[simp] theorem State.record_tblValid (s : State) (ch : Channel) : (s.record ch).tblValid = s.tblValid := rfl
@[simp] theorem State.record_fdBusy (s : State) (ch : Channel) : (s.record ch).fdBusy = s.fdBusy := rfl
@[simp] theorem State.record_fdPhase (s : State) (ch : Channel) : (s.record ch).fdPhase = s.fdPhase := rfl
@[simp] theorem State.record_fdCount (s : State) (ch : Channel) : (s.record ch).fdCount = s.fdCount := rfl
@[simp] theorem State.record_tcntP (s : State) (ch : Channel) : (s.record ch).tcntP = s.tcntP := rfl
@[simp] theorem State.record_tcntM (s : State) (ch : Channel) : (s.record ch).tcntM = s.tcntM := rfl
@[simp] theorem State.record_ocrM (s : State) (ch : Channel) : (s.record ch).ocrM = s.ocrM := rfl
@[simp] theorem State.record_zcF (s : State) (ch : Channel) : (s.record ch).zcF = s.zcF := rfl
@[simp] theorem State.record_povfF (s : State) (ch : Channel) : (s.record ch).povfF = s.povfF := rfl
@[simp] theorem State.record_mcmpF (s : State) (ch : Channel) : (s.record ch).mcmpF = s.mcmpF := rfl
@[simp] theorem State.record_pstate (s : State) (ch : Channel) : (s.record ch).pstate = s.pstate := rfl
@[simp] theorem State.record_mstate (s : State) (ch : Channel) : (s.record ch).mstate = s.mstate := rfl
@[simp] theorem State.record_zcLvl (s : State) (ch : Channel) : (s.record ch).zcLvl = s.zcLvl := rfl
@[simp] theorem State.record_pwrOutN (s : State) (ch : Channel) : (s.record ch).pwrOutN = s.pwrOutN := rfl
@[simp] theorem State.record_motOutN (s : State) (ch : Channel) : (s.record ch).motOutN = s.motOutN := rfl
@[simp] theorem State.record_hc (s : State) (ch : Channel) : (s.record ch).hc = s.hc := rfl
@[simp] theorem State.record_trace (s : State) (ch : Channel) : (s.record ch).trace = s.trace ++ [⟨ch, s.hc, s.tcntP, s.tcntM⟩] := rfl
@[simp] theorem State.record_refused (s : State) (ch : Channel) : (s.record ch).refused = s.refused := rfl
@[simp] theorem State.record_fault (s : State) (ch : Channel) : (s.record ch).fault = s.fault := rfl
@[simp] theorem State.record_inputs (s : State) (ch : Channel) : (s.record ch).inputs = s.inputs := rfl
@[simp] theorem State.record_rdata (s : State) (ch : Channel) : (s.record ch).rdata = s.rdata := rfl

/-! `State.returnRead` -/

@[simp] theorem State.returnRead_cfg (s : State) (v : Word) : (s.returnRead v).cfg = s.cfg := rfl
@[simp] theorem State.returnRead_psm (s : State) (v : Word) : (s.returnRead v).psm = s.psm := rfl
@[simp] theorem State.returnRead_motorMode (s : State) (v : Word) : (s.returnRead v).motorMode = s.motorMode := rfl
@[simp] theorem State.returnRead_shift (s : State) (v : Word) : (s.returnRead v).shift = s.shift := rfl
@[simp] theorem State.returnRead_motArm (s : State) (v : Word) : (s.returnRead v).motArm = s.motArm := rfl
@[simp] theorem State.returnRead_zcEn (s : State) (v : Word) : (s.returnRead v).zcEn = s.zcEn := rfl
@[simp] theorem State.returnRead_pwrEn (s : State) (v : Word) : (s.returnRead v).pwrEn = s.pwrEn := rfl
@[simp] theorem State.returnRead_tblSel (s : State) (v : Word) : (s.returnRead v).tblSel = s.tblSel := rfl
@[simp] theorem State.returnRead_tblValid (s : State) (v : Word) : (s.returnRead v).tblValid = s.tblValid := rfl
@[simp] theorem State.returnRead_fdBusy (s : State) (v : Word) : (s.returnRead v).fdBusy = s.fdBusy := rfl
@[simp] theorem State.returnRead_fdPhase (s : State) (v : Word) : (s.returnRead v).fdPhase = s.fdPhase := rfl
@[simp] theorem State.returnRead_fdCount (s : State) (v : Word) : (s.returnRead v).fdCount = s.fdCount := rfl
@[simp] theorem State.returnRead_tcntP (s : State) (v : Word) : (s.returnRead v).tcntP = s.tcntP := rfl
@[simp] theorem State.returnRead_tcntM (s : State) (v : Word) : (s.returnRead v).tcntM = s.tcntM := rfl
@[simp] theorem State.returnRead_ocrM (s : State) (v : Word) : (s.returnRead v).ocrM = s.ocrM := rfl
@[simp] theorem State.returnRead_zcF (s : State) (v : Word) : (s.returnRead v).zcF = s.zcF := rfl
@[simp] theorem State.returnRead_povfF (s : State) (v : Word) : (s.returnRead v).povfF = s.povfF := rfl
@[simp] theorem State.returnRead_mcmpF (s : State) (v : Word) : (s.returnRead v).mcmpF = s.mcmpF := rfl
@[simp] theorem State.returnRead_pstate (s : State) (v : Word) : (s.returnRead v).pstate = s.pstate := rfl
@[simp] theorem State.returnRead_mstate (s : State) (v : Word) : (s.returnRead v).mstate = s.mstate := rfl
@[simp] theorem State.returnRead_zcLvl (s : State) (v : Word) : (s.returnRead v).zcLvl = s.zcLvl := rfl
@[simp] theorem State.returnRead_pwrOutN (s : State) (v : Word) : (s.returnRead v).pwrOutN = s.pwrOutN := rfl
@[simp] theorem State.returnRead_motOutN (s : State) (v : Word) : (s.returnRead v).motOutN = s.motOutN := rfl
@[simp] theorem State.returnRead_hc (s : State) (v : Word) : (s.returnRead v).hc = s.hc := rfl
@[simp] theorem State.returnRead_trace (s : State) (v : Word) : (s.returnRead v).trace = s.trace := rfl
@[simp] theorem State.returnRead_refused (s : State) (v : Word) : (s.returnRead v).refused = s.refused := rfl
@[simp] theorem State.returnRead_fault (s : State) (v : Word) : (s.returnRead v).fault = s.fault := rfl
@[simp] theorem State.returnRead_inputs (s : State) (v : Word) : (s.returnRead v).inputs = s.inputs := rfl
@[simp] theorem State.returnRead_rdata (s : State) (v : Word) : (s.returnRead v).rdata = s.rdata ++ [v] := rfl

/-! `State.takeInput` -/

@[simp] theorem State.takeInput_cfg (s : State) (rest : List Stim) : (s.takeInput rest).cfg = s.cfg := rfl
@[simp] theorem State.takeInput_psm (s : State) (rest : List Stim) : (s.takeInput rest).psm = s.psm := rfl
@[simp] theorem State.takeInput_motorMode (s : State) (rest : List Stim) : (s.takeInput rest).motorMode = s.motorMode := rfl
@[simp] theorem State.takeInput_shift (s : State) (rest : List Stim) : (s.takeInput rest).shift = s.shift := rfl
@[simp] theorem State.takeInput_motArm (s : State) (rest : List Stim) : (s.takeInput rest).motArm = s.motArm := rfl
@[simp] theorem State.takeInput_zcEn (s : State) (rest : List Stim) : (s.takeInput rest).zcEn = s.zcEn := rfl
@[simp] theorem State.takeInput_pwrEn (s : State) (rest : List Stim) : (s.takeInput rest).pwrEn = s.pwrEn := rfl
@[simp] theorem State.takeInput_tblSel (s : State) (rest : List Stim) : (s.takeInput rest).tblSel = s.tblSel := rfl
@[simp] theorem State.takeInput_tblValid (s : State) (rest : List Stim) : (s.takeInput rest).tblValid = s.tblValid := rfl
@[simp] theorem State.takeInput_fdBusy (s : State) (rest : List Stim) : (s.takeInput rest).fdBusy = s.fdBusy := rfl
@[simp] theorem State.takeInput_fdPhase (s : State) (rest : List Stim) : (s.takeInput rest).fdPhase = s.fdPhase := rfl
@[simp] theorem State.takeInput_fdCount (s : State) (rest : List Stim) : (s.takeInput rest).fdCount = s.fdCount := rfl
@[simp] theorem State.takeInput_tcntP (s : State) (rest : List Stim) : (s.takeInput rest).tcntP = s.tcntP := rfl
@[simp] theorem State.takeInput_tcntM (s : State) (rest : List Stim) : (s.takeInput rest).tcntM = s.tcntM := rfl
@[simp] theorem State.takeInput_ocrM (s : State) (rest : List Stim) : (s.takeInput rest).ocrM = s.ocrM := rfl
@[simp] theorem State.takeInput_zcF (s : State) (rest : List Stim) : (s.takeInput rest).zcF = s.zcF := rfl
@[simp] theorem State.takeInput_povfF (s : State) (rest : List Stim) : (s.takeInput rest).povfF = s.povfF := rfl
@[simp] theorem State.takeInput_mcmpF (s : State) (rest : List Stim) : (s.takeInput rest).mcmpF = s.mcmpF := rfl
@[simp] theorem State.takeInput_pstate (s : State) (rest : List Stim) : (s.takeInput rest).pstate = s.pstate := rfl
@[simp] theorem State.takeInput_mstate (s : State) (rest : List Stim) : (s.takeInput rest).mstate = s.mstate := rfl
@[simp] theorem State.takeInput_zcLvl (s : State) (rest : List Stim) : (s.takeInput rest).zcLvl = s.zcLvl := rfl
@[simp] theorem State.takeInput_pwrOutN (s : State) (rest : List Stim) : (s.takeInput rest).pwrOutN = s.pwrOutN := rfl
@[simp] theorem State.takeInput_motOutN (s : State) (rest : List Stim) : (s.takeInput rest).motOutN = s.motOutN := rfl
@[simp] theorem State.takeInput_hc (s : State) (rest : List Stim) : (s.takeInput rest).hc = s.hc := rfl
@[simp] theorem State.takeInput_trace (s : State) (rest : List Stim) : (s.takeInput rest).trace = s.trace := rfl
@[simp] theorem State.takeInput_refused (s : State) (rest : List Stim) : (s.takeInput rest).refused = s.refused := rfl
@[simp] theorem State.takeInput_fault (s : State) (rest : List Stim) : (s.takeInput rest).fault = s.fault := rfl
@[simp] theorem State.takeInput_inputs (s : State) (rest : List Stim) : (s.takeInput rest).inputs = rest := rfl
@[simp] theorem State.takeInput_rdata (s : State) (rest : List Stim) : (s.takeInput rest).rdata = s.rdata := rfl

/-! `State.emit`: both lines of the pair are back at 1, the record is appended, nothing else changes. -/

@[simp] theorem State.emit_cfg (s : State) (ch : Channel) : (s.emit ch).cfg = s.cfg := by cases ch <;> rfl
@[simp] theorem State.emit_psm (s : State) (ch : Channel) : (s.emit ch).psm = s.psm := by cases ch <;> rfl
@[simp] theorem State.emit_motorMode (s : State) (ch : Channel) : (s.emit ch).motorMode = s.motorMode := by cases ch <;> rfl
@[simp] theorem State.emit_shift (s : State) (ch : Channel) : (s.emit ch).shift = s.shift := by cases ch <;> rfl
@[simp] theorem State.emit_motArm (s : State) (ch : Channel) : (s.emit ch).motArm = s.motArm := by cases ch <;> rfl
@[simp] theorem State.emit_zcEn (s : State) (ch : Channel) : (s.emit ch).zcEn = s.zcEn := by cases ch <;> rfl
@[simp] theorem State.emit_pwrEn (s : State) (ch : Channel) : (s.emit ch).pwrEn = s.pwrEn := by cases ch <;> rfl
@[simp] theorem State.emit_tblSel (s : State) (ch : Channel) : (s.emit ch).tblSel = s.tblSel := by cases ch <;> rfl
@[simp] theorem State.emit_tblValid (s : State) (ch : Channel) : (s.emit ch).tblValid = s.tblValid := by cases ch <;> rfl
@[simp] theorem State.emit_fdBusy (s : State) (ch : Channel) : (s.emit ch).fdBusy = s.fdBusy := by cases ch <;> rfl
@[simp] theorem State.emit_fdPhase (s : State) (ch : Channel) : (s.emit ch).fdPhase = s.fdPhase := by cases ch <;> rfl
@[simp] theorem State.emit_fdCount (s : State) (ch : Channel) : (s.emit ch).fdCount = s.fdCount := by cases ch <;> rfl
@[simp] theorem State.emit_tcntP (s : State) (ch : Channel) : (s.emit ch).tcntP = s.tcntP := by cases ch <;> rfl
@[simp] theorem State.emit_tcntM (s : State) (ch : Channel) : (s.emit ch).tcntM = s.tcntM := by cases ch <;> rfl
@[simp] theorem State.emit_ocrM (s : State) (ch : Channel) : (s.emit ch).ocrM = s.ocrM := by cases ch <;> rfl
@[simp] theorem State.emit_zcF (s : State) (ch : Channel) : (s.emit ch).zcF = s.zcF := by cases ch <;> rfl
@[simp] theorem State.emit_povfF (s : State) (ch : Channel) : (s.emit ch).povfF = s.povfF := by cases ch <;> rfl
@[simp] theorem State.emit_mcmpF (s : State) (ch : Channel) : (s.emit ch).mcmpF = s.mcmpF := by cases ch <;> rfl
@[simp] theorem State.emit_pstate (s : State) (ch : Channel) : (s.emit ch).pstate = s.pstate := by cases ch <;> rfl
@[simp] theorem State.emit_mstate (s : State) (ch : Channel) : (s.emit ch).mstate = s.mstate := by cases ch <;> rfl
@[simp] theorem State.emit_zcLvl (s : State) (ch : Channel) : (s.emit ch).zcLvl = s.zcLvl := by cases ch <;> rfl
@[simp] theorem State.emit_pwr_pwrOutN (s : State) : (s.emit .pwr).pwrOutN = 0b11 := rfl
@[simp] theorem State.emit_mot_pwrOutN (s : State) : (s.emit .mot).pwrOutN = s.pwrOutN := rfl
@[simp] theorem State.emit_mot_motOutN (s : State) : (s.emit .mot).motOutN = 0b11 := rfl
@[simp] theorem State.emit_pwr_motOutN (s : State) : (s.emit .pwr).motOutN = s.motOutN := rfl
@[simp] theorem State.emit_hc (s : State) (ch : Channel) : (s.emit ch).hc = s.hc := by cases ch <;> rfl
@[simp] theorem State.emit_trace (s : State) (ch : Channel) :
    (s.emit ch).trace = s.trace ++ [⟨ch, s.hc, s.tcntP, s.tcntM⟩] := by cases ch <;> rfl
@[simp] theorem State.emit_refused (s : State) (ch : Channel) : (s.emit ch).refused = s.refused := by cases ch <;> rfl
@[simp] theorem State.emit_fault (s : State) (ch : Channel) : (s.emit ch).fault = s.fault := by cases ch <;> rfl
@[simp] theorem State.emit_inputs (s : State) (ch : Channel) : (s.emit ch).inputs = s.inputs := by cases ch <;> rfl
@[simp] theorem State.emit_rdata (s : State) (ch : Channel) : (s.emit ch).rdata = s.rdata := by cases ch <;> rfl

end Sys2Proof.Machine
end

