-- ==== Sys2Proof/Laws/Ops.lean ====
section
/-!
SUPPORT. What each shared operation can do, said once; later proofs cite these and do not unfold the operation.
-/

namespace Sys2Proof.Machine

/-- The power pulse as one record update. -/
theorem State.emit_pwr (s : State) :
    s.emit .pwr = { s with trace := s.trace ++ [⟨.pwr, s.hc, s.tcntP, s.tcntM⟩], pwrOutN := 0b11 } := rfl

/-- The motor pulse as one record update. -/
theorem State.emit_mot (s : State) :
    s.emit .mot = { s with trace := s.trace ++ [⟨.mot, s.hc, s.tcntP, s.tcntM⟩], motOutN := 0b11 } := rfl

/-- A service that answers a next state was enabled, and answers its effect. -/
theorem service_next {v : Service} {f : State → State} {s t : State} (h : service v f s = .next t) :
    s.serviceEnabled v = true ∧ t = f s := by
  unfold service at h
  split at h
  · exact ⟨‹_›, by injection h with h; exact h.symm⟩
  · cases h

/-- An enabled service completes. -/
theorem service_of_enabled {v : Service} {f : State → State} {s : State} (h : s.serviceEnabled v = true) :
    service v f s = .next (f s) := by simp [service, h]

/-- A service that is not enabled is refused by name. -/
theorem service_of_not_enabled {v : Service} {f : State → State} {s : State} (h : s.serviceEnabled v = false) :
    service v f s = .refused .serviceNotEnabled := by simp [service, h]

/-- An enabled service has its flag pending, under either service order. -/
theorem State.flag_of_enabled {s : State} {v : Service} (h : s.serviceEnabled v = true) : s.pendingFlag v = true := by
  unfold State.serviceEnabled at h
  unfold State.pendingFlag
  cases v <;> split at h <;> simp_all [State.pendingFlag]

@[simp] theorem State.zc_enabled (s : State) : s.serviceEnabled .zc = s.zcF := by
  unfold State.serviceEnabled
  split <;> simp_all [State.pendingFlag]

theorem wrapW_lt (c : Params) (x : Nat) : wrapW c x < 2 ^ c.W := Nat.mod_lt _ (Nat.two_pow_pos _)

theorem wrapW_of_lt {c : Params} {x : Nat} (h : x < 2 ^ c.W) : wrapW c x = x := Nat.mod_eq_of_lt h

theorem evenUp_even (x : Nat) : evenUp x % 2 = 0 := by unfold evenUp; omega

theorem evenUp_le (x : Nat) : x ≤ evenUp x ∧ evenUp x ≤ x + 1 := by unfold evenUp; omega

/-- A delay difference that is answered is the exact difference. -/
theorem delayFall_some {t : PhaseTable} {i j : Fin 6} {a : Nat} (h : delayFall t i j = some a) :
    motorDelay t j ≤ motorDelay t i ∧ a = motorDelay t i - motorDelay t j := by
  unfold delayFall at h
  split at h
  · exact ⟨‹_›, by injection h with h; exact h.symm⟩
  · cases h

/-- A level operand that is answered is the operand's value, one of 1..5. -/
theorem levelOf_some {m : BitVec 3} {l : Fin 6} (h : levelOf m = some l) :
    l.val = m.toNat ∧ 1 ≤ m.toNat ∧ m.toNat ≤ 5 := by
  unfold levelOf at h
  split at h
  · next hm => injection h with h; subst h; exact ⟨rfl, hm⟩
  · cases h

/-- Steps 4 and 5 of SVC_ZC change OCR_M, SHIFT and the mark, nothing else. -/
theorem State.loadCompare_eq (s : State) :
    s.loadCompare = { s with ocrM := wrapW s.cfg s.compareSum, fault := s.fault || decide (s.compareSum > s.cfg.cmpMax) } :=
  rfl

theorem State.decayShift_eq (s : State) :
    s.decayShift = { s with shift := if s.shift = 0 then s.shift else s.shift - 2 } := by
  unfold State.decayShift
  split <;> rfl

/-- Step 6 of SVC_ZC changes PSTATE, the trace and the power pair, nothing else. -/
theorem State.forcePulse_eq (s : State) :
    s.forcePulse = { s with
      pstate := if s.psm = true ∧ s.cfg.forcePolicy = .replace then .idle else s.pstate
      trace := if s.psm = true ∧ s.pwrEn = true then s.trace ++ [⟨.pwr, s.hc, s.tcntP, s.tcntM⟩] else s.trace
      pwrOutN := if s.psm = true ∧ s.pwrEn = true then 0b11 else s.pwrOutN } := by
  unfold State.forcePulse
  cases hp : s.psm <;> cases hw : s.pwrEn <;> cases hf : s.cfg.forcePolicy <;> cases s <;>
    simp_all [State.emit_pwr]

/-- Reset as one record update of the reset state. -/
theorem State.toReset_eq (s : State) :
    s.toReset = { State.resetWith s.cfg with inputs := s.inputs, rdata := s.rdata } := rfl

/-- STATUS, bit by bit (10_state.md R29). -/
theorem statusView_getLsbD (s : State) (i : Nat) :
    (statusView s).getLsbD i =
      [ s.zcEn, s.pwrEn, s.motArm, tblSelBit s.tblSel, s.tblValid, s.fdBusy, fdPhaseBit s.fdPhase, schedBit s.pstate,
        schedBit s.mstate, s.zcF, s.povfF, s.mcmpF, s.zcLvl, false, false, false ].getD i false :=
  BitVec.getLsbD_ofBoolListLE

/-- A rejected item either marks a refused command or refuses the trace. -/
theorem rejectStim_cases (e : DecodeReject) (s : State) :
    rejectStim e s = .next s.refuse ∨ rejectStim e s = .refused .unusedEventCode := by
  cases e <;> simp [rejectStim]

end Sys2Proof.Machine
end

