-- ==== Sys2Proof/Laws/PerInstr.lean ====
section
/-!
SUPPORT. The family TableRow, per operation: the word the encoder gives a Format C operation spells that operation's row
of the opcode map (30_encoding.md R68), and the code it gives a Format E operation is a 4-bit code of R73. A fact about
the operation as syntax.
-/

namespace Sys2Proof.Laws.TableRow

/-- The encoded word of a command or a reserved word spells the row of its own mnemonic; an operation of another format
is encoded in its own format. -/
def Statement (i : Instr) : Prop :=
  match encode i with
  | .cmd w => ∃ r ∈ opRows, r.mnemonic = i.mnemonic ∧ r.spells w = true
  | .read idx => i = .regRead idx
  | .write idx val => i = .regWrite idx val
  | .event code => i.agent ≠ .host ∧ decodeEvent code = .ok i

/-- The top four bits of a word are its OP, whatever its argument. -/
theorem cmdWord_and_op (op : BitVec 4) (arg : CmdArg) : cmdWord op arg &&& 0xF000 = cmdWord op 0 := by
  have h : (0xF000 : Word) = (0xF#4 ++ 0#12 : BitVec (4 + 12)) := by decide
  show (op ++ arg : BitVec (4 + 12)) &&& 0xF000 = _
  rw [h, BitVec.and_append]
  have h1 : op &&& 0xF#4 = op := by revert op; decide
  rw [h1, BitVec.and_zero]
  rfl

/-- A reserved word spells its reserved row. -/
theorem reserved_spells (op : BitVec 4) (arg : CmdArg) (n : String) :
    OpRow.spells ⟨n, cmdWord op 0, 0xF000⟩ (cmdWord op arg) = true := by
  exact beq_iff_eq.2 (cmdWord_and_op op arg)

theorem nop : Statement .nop := ⟨⟨"NOP", 0x0000, 0xFFFF⟩, by decide, by decide, by decide⟩

theorem fdet : Statement .fdet := ⟨⟨"FDET", 0x1000, 0xFFFF⟩, by decide, by decide, by decide⟩

theorem zcen (e : Bool) : Statement (.zcen e) :=
  ⟨⟨"ZCEN", 0x2000, 0xFFFE⟩, by decide, by cases e <;> decide, by cases e <;> decide⟩

theorem pwren (e : Bool) : Statement (.pwren e) :=
  ⟨⟨"PWREN", 0x3000, 0xFFFE⟩, by decide, by cases e <;> decide, by cases e <;> decide⟩

theorem setpsm (p : Bool) : Statement (.setpsm p) :=
  ⟨⟨"SETPSM", 0x4000, 0xFFFE⟩, by decide, by cases p <;> decide, by cases p <;> decide⟩

theorem sstart (m : BitVec 3) : Statement (.sstart m) :=
  ⟨⟨"SSTART", 0x5000, 0xFFF8⟩, by decide, rfl, by revert m; decide⟩

theorem arm : Statement .arm := ⟨⟨"ARM", 0x6000, 0xFFFF⟩, by decide, by decide, by decide⟩

theorem disarm : Statement .disarm := ⟨⟨"DISARM", 0x7000, 0xFFFF⟩, by decide, by decide, by decide⟩

theorem minc : Statement .minc := ⟨⟨"MINC", 0x8000, 0xFFFF⟩, by decide, by decide, by decide⟩

theorem mdec : Statement .mdec := ⟨⟨"MDEC", 0x9000, 0xFFFF⟩, by decide, by decide, by decide⟩

theorem reservedOpA (arg : CmdArg) : Statement (.reservedOpA arg) :=
  ⟨⟨"RESERVED_OP_A", 0xA000, 0xF000⟩, by decide, rfl, reserved_spells 0xA arg _⟩

theorem reservedOpB (arg : CmdArg) : Statement (.reservedOpB arg) :=
  ⟨⟨"RESERVED_OP_B", 0xB000, 0xF000⟩, by decide, rfl, reserved_spells 0xB arg _⟩

theorem reservedOpC (arg : CmdArg) : Statement (.reservedOpC arg) :=
  ⟨⟨"RESERVED_OP_C", 0xC000, 0xF000⟩, by decide, rfl, reserved_spells 0xC arg _⟩

theorem reservedOpD (arg : CmdArg) : Statement (.reservedOpD arg) :=
  ⟨⟨"RESERVED_OP_D", 0xD000, 0xF000⟩, by decide, rfl, reserved_spells 0xD arg _⟩

theorem reservedOpE (arg : CmdArg) : Statement (.reservedOpE arg) :=
  ⟨⟨"RESERVED_OP_E", 0xE000, 0xF000⟩, by decide, rfl, reserved_spells 0xE arg _⟩

theorem reservedOpF (arg : CmdArg) : Statement (.reservedOpF arg) :=
  ⟨⟨"RESERVED_OP_F", 0xF000, 0xF000⟩, by decide, rfl, reserved_spells 0xF arg _⟩

theorem regRead (idx : RegIdx) : Statement (.regRead idx) := rfl

theorem regWrite (idx : RegIdx) (val : Word) : Statement (.regWrite idx val) := rfl

theorem zcToggle : Statement .zcToggle := ⟨by decide, rfl⟩

theorem tickP : Statement .tickP := ⟨by decide, rfl⟩

theorem tickM : Statement .tickM := ⟨by decide, rfl⟩

theorem tickF : Statement .tickF := ⟨by decide, rfl⟩

theorem svcZc : Statement .svcZc := ⟨by decide, rfl⟩

theorem svcPovf : Statement .svcPovf := ⟨by decide, rfl⟩

theorem svcMcmp : Statement .svcMcmp := ⟨by decide, rfl⟩

theorem reset : Statement .reset := ⟨by decide, rfl⟩

end Sys2Proof.Laws.TableRow
end

