-- ==== Sys2Proof/Laws/Runs.lean ====
section
/-!
SUPPORT. Runs of several operations, taken apart at either end.
-/

namespace Sys2Proof.Machine

@[simp] theorem runOps_nil (s : State) : runOps [] s = .next s := rfl

/-- A run whose first operation answers a next state goes on from it. -/
theorem runOps_cons {i : Instr} {s t : State} (h : exec i s = .next t) (is : List Instr) :
    runOps (i :: is) s = runOps is t := by simp [runOps, h]

/-- A run whose first part ends goes on from that end. -/
theorem runOps_append {is : List Instr} {s t : State} (h : runOps is s = .next t) (js : List Instr) :
    runOps (is ++ js) s = runOps js t := by
  induction is generalizing s with
  | nil => cases h; rfl
  | cons i is ih =>
    simp only [List.cons_append, runOps] at h ⊢
    split at h
    · exact ih h
    · cases h
    · cases h

@[simp] theorem runTimes_zero (i : Instr) (s : State) : runTimes 0 i s = .next s := rfl

/-- One more time at the end. -/
theorem runTimes_succ {n : Nat} {i : Instr} {s t u : State} (h : runTimes n i s = .next t) (hu : exec i t = .next u) :
    runTimes (n + 1) i s = .next u := by
  unfold runTimes
  rw [List.replicate_succ', runOps_append h, runOps_cons hu]
  rfl

end Sys2Proof.Machine
end

