-- ==== Sys2Proof/Laws/Services.lean ====
section
/-!
SUPPORT. What a service or an edge that answers a next state did, said once as one record update, and the counting of
pulses. Proofs over all operations cite these and do not unfold the services.
-/

namespace Sys2Proof.Machine

/-- SVC_ZC under any parameters: it was pending, and the whole update. -/
theorem svcZc_next {s t : State} (h : exec .svcZc s = .next t) :
    s.zcF = true ∧ t = { s with
      hc := s.hc + 1
      zcF := false
      tcntM := 0
      mstate := .pending
      tcntP := countdown s.cfg (powerDelay s.table s.psm)
      ocrM := wrapW s.cfg s.compareSum
      fault := s.fault || decide (s.compareSum > s.cfg.cmpMax)
      shift := if s.shift = 0 then s.shift else s.shift - 2
      pstate := if s.psm = true ∧ s.cfg.forcePolicy = .replace then .idle else .pending
      trace :=
        if s.psm = true ∧ s.pwrEn = true then
          s.trace ++ [⟨.pwr, s.hc + 1, countdown s.cfg (powerDelay s.table s.psm), 0⟩]
        else s.trace
      pwrOutN := if s.psm = true ∧ s.pwrEn = true then 0b11 else s.pwrOutN } := by
  unfold exec execSvcZc at h
  obtain ⟨h1, h2⟩ := service_next h
  rw [State.zc_enabled] at h1
  rw [h2, State.forcePulse_eq, State.decayShift_eq, State.loadCompare_eq]
  exact ⟨h1, rfl⟩

/-- SVC_POVF: it was enabled, and the whole update. -/
theorem svcPovf_next {s t : State} (h : exec .svcPovf s = .next t) :
    s.serviceEnabled .povf = true ∧ t = { s with
      povfF := false
      pstate := .idle
      trace :=
        if s.pstate = .pending ∧ s.pwrEn = true then s.trace ++ [⟨.pwr, s.hc, s.tcntP, s.tcntM⟩] else s.trace
      pwrOutN := if s.pstate = .pending ∧ s.pwrEn = true then 0b11 else s.pwrOutN } := by
  obtain ⟨h1, h2⟩ := service_next h
  refine ⟨h1, ?_⟩
  rw [h2]
  unfold State.serviceOverflow
  cases hp : s.pstate <;> cases hq : s.pwrEn <;> simp_all [State.emit_pwr]

/-- SVC_MCMP: it was enabled, and the whole update. -/
theorem svcMcmp_next {s t : State} (h : exec .svcMcmp s = .next t) :
    s.serviceEnabled .mcmp = true ∧ t = { s with
      mcmpF := false
      mstate := if s.motArm = true then .idle else s.mstate
      ocrM := if s.motArm = true then s.cfg.cmpMax else s.ocrM
      trace :=
        if s.mstate = .pending ∧ s.motArm = true then s.trace ++ [⟨.mot, s.hc, s.tcntP, s.tcntM⟩] else s.trace
      motOutN := if s.mstate = .pending ∧ s.motArm = true then 0b11 else s.motOutN } := by
  obtain ⟨h1, h2⟩ := service_next h
  refine ⟨h1, ?_⟩
  rw [h2]
  unfold State.serviceMatch
  cases hp : s.mstate <;> cases hq : s.motArm <;> simp_all [State.emit_mot]

/-- ZC_TOGGLE: the level, the flag and the detector's five fields may change, the latter in three ways. -/
theorem zcToggle_next {s t : State} (h : exec .zcToggle s = .next t) :
    t = { s with
      zcLvl := !s.zcLvl, zcF := s.zcF || s.zcEn
      fdCount := t.fdCount, fdPhase := t.fdPhase, fdBusy := t.fdBusy, tblSel := t.tblSel, tblValid := t.tblValid } ∧
    ((t.fdCount = s.fdCount ∧ t.fdPhase = s.fdPhase ∧ t.fdBusy = s.fdBusy ∧ t.tblSel = s.tblSel ∧
        t.tblValid = s.tblValid) ∨
      (s.fdBusy = true ∧ t.fdPhase = .awaitRising ∧ t.fdBusy = true ∧ t.tblSel = s.tblSel ∧ t.tblValid = s.tblValid) ∨
      (s.fdBusy = true ∧ t.fdPhase = .awaitFalling ∧ t.fdBusy = false ∧ t.tblValid = true)) := by
  simp only [exec, execZcToggle] at h
  injection h with h
  subst h
  unfold State.detectorEdge State.completeDetection
  split <;> [split; skip] <;> simp_all

/-- One more record adds one to its own channel and half-cycle. -/
theorem pulsesIn_append (ch : Channel) (h : Nat) (l : List Pulse) (r : Pulse) :
    pulsesIn ch h (l ++ [r]) = pulsesIn ch h l + if r.ch = ch ∧ r.hc = h then 1 else 0 := by
  simp [pulsesIn, List.countP_append, List.countP_cons]

/-- The decay of a SHIFT that is even and not 0 does not wrap. -/
theorem shift_sub_two {x : BitVec 16} (h : x.toNat % 2 = 0) (h0 : x ≠ 0) : (x - 2).toNat = x.toNat - 2 := by
  have : x.toNat ≠ 0 := fun h => h0 (by apply BitVec.eq_of_toNat_eq; simpa)
  have h2 : (2 : BitVec 16).toNat = 2 := rfl
  rw [BitVec.toNat_sub_of_le (by rw [BitVec.le_def]; omega), h2]

end Sys2Proof.Machine
end

