-- ==== Sys2Proof/Laws/Tables.lean ====
section
/-!
SUPPORT. What well-formed parameters (00_scope.md R7, R8) give: bounds of W and of CMP_MAX, and the range and the order of
the delays of the selected table.
-/

namespace Sys2Proof

open Machine

theorem Params.cmpMax_succ (c : Params) : c.cmpMax + 1 = 2 ^ c.W := Nat.sub_add_cancel Nat.one_le_two_pow

theorem Params.cmpMax_lt (c : Params) : c.cmpMax < 2 ^ c.W := Nat.sub_lt (Nat.two_pow_pos _) Nat.one_pos

/-- `W` is in 4..14, so `2^W` is at most 16384. -/
theorem Params.wf_width {c : Params} (h : c.wf = true) : 4 ≤ c.W ∧ c.W ≤ 14 ∧ 2 ^ c.W ≤ 16384 := by
  simp only [Params.wf, Bool.and_eq_true, decide_eq_true_eq] at h
  exact ⟨h.1.1.1, h.1.1.2, Nat.pow_le_pow_right (by omega) h.1.1.2⟩

/-- R8 (c) for motorDelay, for every level. -/
theorem PhaseTable.wf_delay {t : PhaseTable} {n : Nat} (h : t.wf n = true) (m : Fin 6) :
    1 ≤ motorDelay t m ∧ motorDelay t m < n := by
  simp only [PhaseTable.wf, Bool.and_eq_true, decide_eq_true_eq] at h
  unfold motorDelay
  match m with
  | 0 | 1 | 2 | 3 | 4 | 5 => simp; omega

/-- R8 (a): a higher level has a smaller delay. -/
theorem PhaseTable.wf_decreasing {t : PhaseTable} {n : Nat} (h : t.wf n = true) {i j : Fin 6} (hij : i < j) :
    motorDelay t j < motorDelay t i := by
  simp only [PhaseTable.wf, Bool.and_eq_true, decide_eq_true_eq] at h
  unfold motorDelay
  revert hij
  match i, j with
  | 0, 0 | 0, 1 | 0, 2 | 0, 3 | 0, 4 | 0, 5 | 1, 0 | 1, 1 | 1, 2 | 1, 3 | 1, 4 | 1, 5 => simp; try omega
  | 2, 0 | 2, 1 | 2, 2 | 2, 3 | 2, 4 | 2, 5 | 3, 0 | 3, 1 | 3, 2 | 3, 3 | 3, 4 | 3, 5 => simp; try omega
  | 4, 0 | 4, 1 | 4, 2 | 4, 3 | 4, 4 | 4, 5 | 5, 0 | 5, 1 | 5, 2 | 5, 3 | 5, 4 | 5, 5 => simp; try omega

/-- R8 (c) for powerDelay, in either mode. -/
theorem PhaseTable.wf_power {t : PhaseTable} {n : Nat} (h : t.wf n = true) (p : Bool) :
    1 ≤ powerDelay t p ∧ powerDelay t p < n := by
  simp only [PhaseTable.wf, Bool.and_eq_true, decide_eq_true_eq] at h
  unfold powerDelay
  split <;> omega

end Sys2Proof

namespace Sys2Proof.Machine

/-- The selected table is well-formed under well-formed parameters. -/
theorem State.table_wf {s : State} (h : s.cfg.wf = true) : s.table.wf s.cfg.cmpMax = true := by
  simp only [Params.wf, Bool.and_eq_true] at h
  unfold State.table
  split
  · exact h.1.2
  · exact h.2

/-- Under R8 (a) a fall from a lower to a higher level is answered, and is the exact difference. -/
theorem delayFall_of_wf {s : State} (h : s.cfg.wf = true) {i j : Fin 6} (hij : i < j) :
    delayFall s.table i j = some (motorDelay s.table i - motorDelay s.table j) :=
  if_pos (Nat.le_of_lt (PhaseTable.wf_decreasing (State.table_wf h) hij))

/-- The countdown load of a well-formed entry is `2^W - d` (43_power_scheduler.md R119). -/
theorem countdown_of_pos {c : Params} {d : Nat} (h1 : 1 ≤ d) (h2 : d < 2 ^ c.W) : countdown c d = 2 ^ c.W - d := by
  unfold countdown
  rw [wrapW_of_lt h2, wrapW_of_lt (by omega)]

end Sys2Proof.Machine
end

