-- ==== Sys2Proof/Tests/Slice0.lean ====
section
/-!
SUPPORT. Tests. Expected values are those of 95_test_vectors.md (the vector is named) or are worked out from the rule
named; the table of each encoding is 30_encoding.md R68 and R73. The last part gives, for every statement with
hypotheses, states and operands that meet them.
-/

namespace Sys2Proof.Tests

open Sys2Proof Sys2Proof.Machine

/-! ## Settings of 95_test_vectors.md, section 0 -/

/-- TBL_EX50. -/
def ex50 : PhaseTable := ⟨#v[180, 10], #v[201, 160, 125, 95, 61, 30]⟩

/-- TBL_EX60. -/
def ex60 : PhaseTable := ⟨#v[150, 8], #v[167, 133, 104, 78, 51, 25]⟩

/-- The table of V-Z12. -/
def exZ12 : PhaseTable := ⟨#v[100, 5], #v[200, 190, 10, 8, 6, 4]⟩

/-- A table at the bounds of 00_scope.md R8 (c) for W = 8: the smallest delay 1, the largest 254. -/
def exEdge : PhaseTable := ⟨#v[254, 1], #v[254, 5, 4, 3, 2, 1]⟩

/-- The common settings. -/
def cfg : Params := ⟨8, ex50, ex60, .replace, .unconstrained, true⟩

/-- S_RST(1). -/
def rst1 : State := State.resetWith cfg

/-- S_RST(0). -/
def rst0 : State := State.resetWith { cfg with zcLvl0 := false }

/-- S_BOOT50. -/
def boot50 : State := { rst1 with tblSel := .hz50, tblValid := true, fdCount := 150, zcEn := true, pwrEn := true }

/-- S_BOOT60. -/
def boot60 : State := { rst0 with tblValid := true, fdCount := 130, zcEn := true, pwrEn := true, zcLvl := true }

/-- S_BOOT50 at a level with a shift. -/
def atLevel (m : Fin 6) (shift : BitVec 16) : State := { boot50 with motorMode := m, shift := shift }

/-- What a step left satisfies `p`. -/
def sees (r : Result) (p : State → Bool) : Bool :=
  match r with
  | .next t => p t
  | .fault _ => false
  | .refused _ => false

/-- A step was refused under this name. -/
def stops (r : Result) (why : Refusal) : Bool :=
  match r with
  | .next _ => false
  | .fault _ => false
  | .refused w => w == why

/-! ## WellFormed smoke tests -/

theorem test_wf_sstart : (Instr.sstart 1).wf = true ∧ (Instr.sstart 5).wf = true := by decide
theorem test_wf_refuses_level_0 : (Instr.sstart 0).wf = false := by decide
theorem test_wf_refuses_level_6_and_7 : (Instr.sstart 6).wf = false ∧ (Instr.sstart 7).wf = false := by decide
theorem test_wf_tables : cfg.wf = true ∧ exZ12.wf 255 = true ∧ exEdge.wf 255 = true := by decide
/-- 00_scope.md R8 (a): equal neighbours. -/
theorem test_wf_refuses_equal_delays : PhaseTable.wf ⟨#v[180, 10], #v[201, 160, 160, 95, 61, 30]⟩ 255 = false := by decide
/-- 00_scope.md R8 (b). -/
theorem test_wf_refuses_power_order : PhaseTable.wf ⟨#v[10, 10], #v[201, 160, 125, 95, 61, 30]⟩ 255 = false := by decide
/-- 00_scope.md R8 (c): an entry of CMP_MAX, and one of 0. -/
theorem test_wf_refuses_entry_range :
    PhaseTable.wf ⟨#v[180, 10], #v[255, 160, 125, 95, 61, 30]⟩ 255 = false ∧
    PhaseTable.wf ⟨#v[180, 10], #v[201, 160, 125, 95, 61, 0]⟩ 255 = false ∧
    PhaseTable.wf ⟨#v[255, 10], #v[201, 160, 125, 95, 61, 30]⟩ 255 = false ∧
    PhaseTable.wf ⟨#v[180, 0], #v[201, 160, 125, 95, 61, 30]⟩ 255 = false := by decide
/-- 00_scope.md R7: W below 4 and above 14. -/
theorem test_wf_refuses_width : Params.wf { cfg with W := 3 } = false ∧ Params.wf { cfg with W := 15 } = false := by decide

/-! ## Decoding, the words written out from 30_encoding.md R68 and R73 (V-E1 to V-E20) -/

theorem test_word_nop : decodeTableWord 16 0b0000000000000000 = some .nop := by decide
theorem test_word_fdet : decodeTableWord 16 0b0001000000000000 = some .fdet := by decide
theorem test_word_zcen : decodeTableWord 16 0b0010000000000001 = some (.zcen true) := by decide
theorem test_word_zcen_0 : decodeTableWord 16 0b0010000000000000 = some (.zcen false) := by decide
theorem test_word_pwren : decodeTableWord 16 0b0011000000000001 = some (.pwren true) := by decide
theorem test_word_setpsm : decodeTableWord 16 0b0100000000000001 = some (.setpsm true) := by decide
theorem test_word_sstart : decodeTableWord 16 0b0101000000000011 = some (.sstart 3) := by decide
theorem test_word_arm : decodeTableWord 16 0b0110000000000000 = some .arm := by decide
theorem test_word_disarm : decodeTableWord 16 0b0111000000000000 = some .disarm := by decide
theorem test_word_minc : decodeTableWord 16 0b1000000000000000 = some .minc := by decide
theorem test_word_mdec : decodeTableWord 16 0b1001000000000000 = some .mdec := by decide
theorem test_word_reserved_a : decodeTableWord 16 0b1010000000000000 = some (.reservedOpA 0) := by decide
theorem test_word_reserved_b : decodeTableWord 16 0b1011000000000001 = some (.reservedOpB 1) := by decide
theorem test_word_reserved_c : decodeTableWord 16 0b1100100000000000 = some (.reservedOpC 0x800) := by decide
theorem test_word_reserved_d : decodeTableWord 16 0b1101010101010101 = some (.reservedOpD 0x555) := by decide
theorem test_word_reserved_e : decodeTableWord 16 0b1110000011110000 = some (.reservedOpE 0x0F0) := by decide
theorem test_word_reserved_f : decodeTableWord 16 0b1111000100100011 = some (.reservedOpF 0x123) := by decide
theorem test_code_zc_toggle : decodeTableWord 8 0b0000 = some .zcToggle := by decide
theorem test_code_tick_p : decodeTableWord 8 0b0001 = some .tickP := by decide
theorem test_code_tick_m : decodeTableWord 8 0b0010 = some .tickM := by decide
theorem test_code_tick_f : decodeTableWord 8 0b0011 = some .tickF := by decide
theorem test_code_svc_zc : decodeTableWord 8 0b1000 = some .svcZc := by decide
theorem test_code_svc_povf : decodeTableWord 8 0b1001 = some .svcPovf := by decide
theorem test_code_svc_mcmp : decodeTableWord 8 0b1010 = some .svcMcmp := by decide
theorem test_code_reset : decodeTableWord 8 0b1111 = some .reset := by decide
/-- Format B has no bit encoding (30_encoding.md R74): the raw item is the operation. -/
theorem test_item_reg_read : decode (.read 0x2) = .ok (.regRead 0x2) := rfl
theorem test_item_reg_write : decode (.write 0x0 0x5003) = .ok (.regWrite 0x0 0x5003) := rfl
/-- V-E2, V-E4, V-E6, V-E12, V-E13, V-E15, V-E16. -/
theorem test_words_with_a_reserved_bit :
    decodeTableWord 16 0x0001 = none ∧ decodeTableWord 16 0x1800 = none ∧ decodeTableWord 16 0x2002 = none ∧
    decodeTableWord 16 0x5010 = none ∧ decodeTableWord 16 0x5803 = none ∧ decodeTableWord 16 0x6001 = none ∧
    decodeTableWord 16 0x8100 = none ∧ decodeTableWord 16 0x9001 = none := by decide
/-- V-E9, V-E11. -/
theorem test_words_with_an_illegal_level :
    decodeTableWord 16 0x5000 = none ∧ decodeTableWord 16 0x5006 = none ∧ decodeTableWord 16 0x5007 = none := by decide
/-- V-E20. -/
theorem test_code_unused : decodeTableWord 8 0x5 = none := by decide
/-- The encoder gives the words of R68. -/
theorem test_encode_words :
    encode (.sstart 3) = .cmd 0x5003 ∧ encode (.setpsm true) = .cmd 0x4001 ∧ encode .svcMcmp = .event 0xA := by decide

/-! ## A row's word is the first step after reset -/

theorem test_first_step_fdet : sees (step (State.reset.withFetchWord 16 0x1000)) (fun t => t.fdBusy) = true := by decide
theorem test_first_step_svc_zc : sees (step (State.reset.withFetchWord 8 0x8)) (fun t => t.hc == 1 && !t.zcF) = true := by
  decide
theorem test_first_step_svc_mcmp : sees (step (State.reset.withFetchWord 8 0xA)) (fun t => !t.mcmpF) = true := by decide
/-- An unused code refuses the trace (30_encoding.md R73). -/
theorem test_first_step_unused : stops (step (State.reset.withFetchWord 8 0x5)) .unusedEventCode = true := by decide

/-! ## Bus and command interface (V-B, V-X1) -/

theorem test_nop : sees (exec .nop boot50) (fun t => t == boot50) = true := by decide
/-- V-B1, V-B2, V-B3. -/
theorem test_views_after_reset : view rst1 0x1 = 0x1000 ∧ view rst0 0x1 = 0x0000 ∧ view rst1 0x6 = 0x00FF := by decide
/-- V-B4. -/
theorem test_views_reading_zero : view rst1 0x0 = 0 ∧ view rst1 0x9 = 0 ∧ view rst1 0xF = 0 := by decide
/-- V-B5. -/
theorem test_views_after_boot : view boot50 0x1 = 0x101B ∧ view boot50 0x7 = 0x0096 := by decide
/-- V-B9. -/
theorem test_reg_read :
    sees (exec (.regRead 0x2) { atLevel 4 140 with psm := true }) (fun t => t.rdata == [0x0104]) = true := by decide
theorem test_view_shift : view (atLevel 4 140) 0x3 = 0x008C := by decide
/-- V-B7. -/
theorem test_reg_write_ignored : sees (exec (.regWrite 0x6 0x0010) boot50) (fun t => t == boot50) = true := by decide
/-- V-E19: `WR 0x0, 0x5003` is SSTART 3. -/
theorem test_reg_write_command :
    sees (exec (.regWrite 0x0 0x5003) boot50) (fun t => t.motorMode == 3 && t.shift == 106) = true := by decide
/-- V-B8. -/
theorem test_reserved_a : sees (exec (.reservedOpA 0) boot50) (fun t => t == { boot50 with refused := true }) = true := by
  decide
theorem test_reserved_b : sees (exec (.reservedOpB 1) boot50) (fun t => t == { boot50 with refused := true }) = true := by
  decide
theorem test_reserved_c : sees (exec (.reservedOpC 2) boot50) (fun t => t == { boot50 with refused := true }) = true := by
  decide
theorem test_reserved_d : sees (exec (.reservedOpD 3) boot50) (fun t => t == { boot50 with refused := true }) = true := by
  decide
theorem test_reserved_e : sees (exec (.reservedOpE 4) boot50) (fun t => t == { boot50 with refused := true }) = true := by
  decide
theorem test_reserved_f : sees (exec (.reservedOpF 5) boot50) (fun t => t == { boot50 with refused := true }) = true := by
  decide
/-- V-X1. -/
theorem test_write_of_illegal_level :
    sees (exec (.regWrite 0x0 0x5006) boot50) (fun t => t == { boot50 with refused := true }) = true := by decide

/-! ## Frequency detector (V-F) -/

/-- V-F1. -/
theorem test_fdet : sees (exec .fdet rst1) (fun t => t.fdBusy && view t 0x1 == 0x1020) = true := by decide
/-- V-F11. -/
theorem test_fdet_refused :
    sees (exec .fdet boot50) (fun t => t.refused && t.tblSel == .hz50 && !t.fdBusy) = true := by decide
/-- V-F2. -/
theorem test_zc_toggle_falling :
    sees (exec .zcToggle { rst1 with fdBusy := true, fdCount := 7 })
      (fun t => !t.zcLvl && t.fdPhase == .awaitRising && t.fdCount == 0) = true := by decide
/-- V-F4, V-F5: the threshold on the rising edge. -/
theorem test_zc_toggle_threshold :
    sees (exec .zcToggle { rst0 with fdBusy := true, fdPhase := .awaitRising, fdCount := 143 })
      (fun t => t.tblSel == .hz60 && t.tblValid && !t.fdBusy) = true ∧
    sees (exec .zcToggle { rst0 with fdBusy := true, fdPhase := .awaitRising, fdCount := 144 })
      (fun t => t.tblSel == .hz50 && t.tblValid && !t.fdBusy) = true := by decide
/-- V-F7: the count saturates. -/
theorem test_tick_f_saturates :
    sees (exec .tickF { rst0 with fdBusy := true, fdPhase := .awaitRising, fdCount := 0xFFFF })
      (fun t => t.fdCount == 0xFFFF) = true := by decide
/-- V-F8: a tick before the falling edge does not count. -/
theorem test_tick_f_before_the_edge :
    sees (exec .tickF { rst1 with fdBusy := true }) (fun t => t.fdCount == 0) = true := by decide

/-! ## Zero-cross synchronizer (V-Z) -/

/-- V-Z1. -/
theorem test_zcen_refused : sees (exec (.zcen true) rst1) (fun t => t.refused && !t.zcEn) = true := by decide
/-- V-Z4. -/
theorem test_zcen_0 : sees (exec (.zcen false) { boot50 with zcF := true }) (fun t => !t.zcF && !t.zcEn) = true := by decide
/-- V-Z7, the example of R108. -/
theorem test_svc_zc :
    sees (exec .svcZc { atLevel 3 106 with zcF := true, zcLvl := false, tcntM := 9 })
      (fun t => t.hc == 1 && t.tcntP == 76 && t.tcntM == 0 && t.ocrM == 201 && t.shift == 104 &&
        t.pstate == .pending && t.mstate == .pending && t.trace == []) = true := by decide
/-- V-Z8, and V-Z12's last service. -/
theorem test_svc_zc_forced_and_out_of_range :
    sees (exec .svcZc { boot50 with psm := true, zcF := true })
      (fun t => t.trace == [⟨.pwr, 1, 246, 0⟩] && t.pstate == .idle && t.tcntP == 246) = true ∧
    sees (exec .svcZc { atLevel 1 180 with cfg := { cfg with tbl50 := exZ12 }, zcF := true })
      (fun t => t.ocrM == 114 && t.fault && t.shift == 178) = true := by decide
/-- V-X6. -/
theorem test_svc_not_enabled : stops (exec .svcZc boot50) .serviceNotEnabled = true := by decide

/-! ## Power-pulse scheduler (V-P) -/

theorem test_pwren : sees (exec (.pwren false) boot50) (fun t => t == { boot50 with pwrEn := false }) = true := by decide
theorem test_setpsm : sees (exec (.setpsm true) rst1) (fun t => t == { rst1 with psm := true }) = true := by decide
/-- V-P1. -/
theorem test_tick_p : sees (exec .tickP { boot50 with tcntP := 255 }) (fun t => t.tcntP == 0 && t.povfF) = true := by decide
/-- V-P3. -/
theorem test_svc_povf :
    sees (exec .svcPovf { boot50 with povfF := true, pstate := .pending, hc := 1 })
      (fun t => t.trace == [⟨.pwr, 1, 0, 0⟩] && t.pstate == .idle && !t.povfF) = true := by decide
/-- V-P4. -/
theorem test_svc_povf_idle : sees (exec .svcPovf { boot50 with povfF := true }) (fun t => t == boot50) = true := by decide
/-- V-P6 and V-P7: the force policy. -/
theorem test_force_policy :
    sees (exec .svcZc { boot50 with psm := true, zcF := true, cfg := { cfg with forcePolicy := .additional } })
      (fun t => t.trace == [⟨.pwr, 1, 246, 0⟩] && t.pstate == .pending) = true := by decide

/-! ## Motor-pulse scheduler (V-M) -/

/-- V-M2's first step. -/
theorem test_tick_m :
    sees (exec .tickM { boot50 with tcntM := 201, ocrM := 202 }) (fun t => t.tcntM == 202 && t.mcmpF) = true := by decide
/-- V-M9: OCR_M = 0 matches at the wrap. -/
theorem test_tick_m_wrap :
    sees (exec .tickM { boot50 with tcntM := 255, ocrM := 0 }) (fun t => t.tcntM == 0 && t.mcmpF) = true := by decide
/-- V-M2. -/
theorem test_svc_mcmp :
    sees (exec .svcMcmp
        { boot50 with motArm := true, mcmpF := true, mstate := .pending, hc := 1, tcntP := 76, tcntM := 202, ocrM := 202 })
      (fun t => t.trace == [⟨.mot, 1, 76, 202⟩] && t.ocrM == 255 && t.mstate == .idle && !t.mcmpF) = true := by decide
/-- V-M4. -/
theorem test_svc_mcmp_disarmed :
    sees (exec .svcMcmp { boot50 with mcmpF := true, mstate := .pending, ocrM := 202 })
      (fun t => t.trace == [] && t.ocrM == 202 && t.mstate == .pending && !t.mcmpF) = true := by decide
/-- V-M5. -/
theorem test_arm :
    sees (exec .arm { boot50 with mcmpF := true, mstate := .pending })
      (fun t => t.motArm && !t.mcmpF && t.mstate == .idle) = true := by decide
/-- V-M6. -/
theorem test_arm_armed :
    sees (exec .arm { boot50 with motArm := true, mcmpF := true }) (fun t => t.motArm && t.mcmpF) = true := by decide
/-- V-M7. -/
theorem test_disarm :
    sees (exec .disarm { boot50 with motArm := true }) (fun t => t == boot50) = true := by decide

/-! ## Soft-start ramp (V-R) -/

/-- V-R1. -/
theorem test_sstart :
    sees (exec (.sstart 1) boot50) (fun t => t.motorMode == 1 && t.shift == 42) = true ∧
    sees (exec (.sstart 5) boot60) (fun t => t.motorMode == 5 && t.shift == 142) = true := by decide
/-- V-R3. -/
theorem test_sstart_refused : sees (exec (.sstart 1) rst1) (fun t => t == { rst1 with refused := true }) = true := by decide
/-- V-R5. -/
theorem test_minc : sees (exec .minc (atLevel 1 42)) (fun t => t.motorMode == 2 && t.shift == 78) = true := by decide
/-- V-R17. -/
theorem test_minc_range :
    sees (exec .minc (atLevel 1 0xFFF0)) (fun t => t.shift == 0x0014 && t.fault && t.motorMode == 2) = true := by decide
/-- V-R12. -/
theorem test_mdec : sees (exec .mdec (atLevel 3 32)) (fun t => t.motorMode == 2 && t.shift == 2) = true := by decide
/-- V-R11. -/
theorem test_mdec_no_correction :
    sees (exec .mdec (atLevel 3 30)) (fun t => t.motorMode == 2 && t.shift == 30) = true := by decide
/-- V-R7, V-R8: ceiling and floor; V-R4: the standby level. -/
theorem test_level_limits :
    sees (exec .minc (atLevel 5 172)) (fun t => t == atLevel 5 172) = true ∧
    sees (exec .mdec (atLevel 1 42)) (fun t => t == atLevel 1 42) = true ∧
    sees (exec .minc boot50) (fun t => t == { boot50 with refused := true }) = true := by decide
/-- A table that violates 00_scope.md R8 (a) is outside the spec (log entry 9). -/
theorem test_table_outside_spec :
    stops (exec (.sstart 1) { boot50 with cfg := { cfg with tbl50 := ⟨#v[180, 10], #v[1, 2, 3, 4, 5, 6]⟩ } })
      .tableOutsideSpec = true := by decide

/-! ## Reset (V-H1) -/

theorem test_reset :
    sees (exec .reset { atLevel 1 40 with motArm := true, hc := 1, tcntP := 76, ocrM := 202 }) (fun t => t == rst1) = true := by
  decide

/-! ## Assembly text (30_encoding.md R75, R76) -/

/-- V-E19. -/
theorem test_line_sstart : assembleLine ['S', 'S', 'T', 'A', 'R', 'T', ' ', '3'] = some [.cmd 0x5003] := by decide
theorem test_line_write :
    assembleLine ['W', 'R', ' ', '0', 'x', '0', ',', ' ', '0', 'x', '5', '0', '0', '3'] = some [.write 0x0 0x5003] := by decide
/-- `TICKF 3 ; three` is three ticks. -/
theorem test_line_ticks :
    assembleLine ['T', 'I', 'C', 'K', 'F', ' ', '3', ' ', ';', 'x'] = some [.event 0x3, .event 0x3, .event 0x3] := by decide
/-- A blank and a comment-only line stand for no item (log entry 20). -/
theorem test_line_blank : assembleLine [' '] = some [] ∧ assembleLine [';', 'x'] = some [] := by decide
theorem test_line_unknown : assembleLine ['F', 'O', 'O'] = none := by decide
/-- V-S3: `POWER_ON 1, 1`. -/
theorem test_pseudo_power_on : (Pseudo.powerOn 1 true).expand [] 0 = [.setpsm true, .sstart 1, .arm] := by decide

/-! ## Witnesses: states and operands that meet the hypotheses of the statements -/

/-- S_BOOT50 meets the invariant, and so does every state that differs from it in a level and an even shift. -/
theorem witness_inv (m : Fin 6) (n : BitVec 16) (h : n.toNat % 2 = 0) : (atLevel m n).Inv where
  shiftEven := h
  enabledHasTable := fun _ => rfl
  neverBoth := fun h => Bool.noConfusion h.2
  flagUnderEnable := fun _ => rfl
  measuredOnce := fun h => Bool.noConfusion h
  countingIsBusy := fun h => FdPhase.noConfusion h
  tcntPRange := (by decide : 0 < 2 ^ 8)
  tcntMRange := (by decide : 0 < 2 ^ 8)
  ocrMRange := (by decide : 255 < 2 ^ 8)
  pwrIdle := rfl
  motIdle := rfl

theorem witness_inv_boot : boot50.Inv := witness_inv 0 0 (by decide)

/-- ReadReturnsTheViewAndChangesNoField: CMD, and the first and the last reserved index. -/
theorem witness_zero_index : (0x0 : RegIdx) = 0 ∧ 8 ≤ (0x8 : RegIdx).toNat ∧ 8 ≤ (0xF : RegIdx).toNat := by decide
/-- ValueRegistersShowTheirFields: the largest W-bit values, and the first bit above. -/
theorem witness_value_registers :
    let s := { boot50 with tcntP := 255, tcntM := 0, ocrM := 255 }
    s.cfg.W ≤ 16 ∧ s.tcntP < 2 ^ s.cfg.W ∧ s.tcntM < 2 ^ s.cfg.W ∧ s.ocrM < 2 ^ s.cfg.W ∧ s.cfg.W ≤ 8 := by decide
/-- RefusedWordsOnlySetTheMark: a word of each kind, at the ends of its range. -/
theorem witness_refused_words :
    10 ≤ (BitVec.extractLsb' 12 4 (0xA000 : Word)).toNat ∧ 10 ≤ (BitVec.extractLsb' 12 4 (0xFFFF : Word)).toNat ∧
    (BitVec.extractLsb' 12 4 (0x0001 : Word)).toNat ∈ [0, 1, 6, 7, 8, 9] ∧ BitVec.extractLsb' 0 12 (0x0001 : Word) ≠ 0 ∧
    (BitVec.extractLsb' 12 4 (0x9800 : Word)).toNat ∈ [0, 1, 6, 7, 8, 9] ∧ BitVec.extractLsb' 0 12 (0x9800 : Word) ≠ 0 ∧
    (BitVec.extractLsb' 12 4 (0x2002 : Word)).toNat ∈ [2, 3, 4] ∧ BitVec.extractLsb' 1 11 (0x2002 : Word) ≠ 0 ∧
    (BitVec.extractLsb' 12 4 (0x5010 : Word)).toNat = 5 ∧ BitVec.extractLsb' 3 9 (0x5010 : Word) ≠ 0 ∧
    (BitVec.extractLsb' 0 3 (0x5000 : Word)).toNat ∈ [0, 6, 7] ∧ (BitVec.extractLsb' 0 3 (0x5007 : Word)).toNat ∈ [0, 6, 7] := by
  decide
/-- RegisterWriteRunsACommandOrIsIgnored: its three clauses, the first and the last ignored index among them. -/
theorem witness_register_write :
    decodeCommand 0x5005 = .ok (.sstart 5) ∧ (∀ c, decodeCommand 0x5006 ≠ .ok c) ∧ (0x1 : RegIdx) ≠ 0 ∧
    (0xF : RegIdx) ≠ 0 := by
  have h : decodeCommand 0x5006 = .error .illegalLevel := rfl
  refine ⟨rfl, fun c hc => ?_, by decide, by decide⟩
  rw [h] at hc
  cases hc
/-- CommandsAreRefusedExactlyOnTheirConditions: refused, and not refused. -/
theorem witness_refusal_conditions :
    Instr.isCommand .minc = true ∧ Instr.wf .minc = true ∧ boot50.cfg.wf = true ∧ refusalCondition .minc boot50 = true ∧
    refusalCondition .minc (atLevel 4 0) = false := by decide
/-- HostOperationsTouchNoTimerAndEmitNothing. -/
theorem witness_host_operation : ∃ t, Instr.agent .arm = .host ∧ exec .arm boot50 = .next t := ⟨_, rfl, rfl⟩
/-- DecodeFollowsTheOpcodeMap: a word that decodes, and words that spell a row, the SSTART row at levels 1 and 5. -/
theorem witness_opcode_map :
    decodeCommand 0x9000 = .ok .mdec ∧
    (⟨"SSTART", 0x5000, 0xFFF8⟩ : OpRow) ∈ opRows ∧ OpRow.spells ⟨"SSTART", 0x5000, 0xFFF8⟩ 0x5001 = true ∧
    OpRow.spells ⟨"SSTART", 0x5000, 0xFFF8⟩ 0x5005 = true ∧
    1 ≤ (BitVec.extractLsb' 0 3 (0x5001 : Word)).toNat ∧ (BitVec.extractLsb' 0 3 (0x5005 : Word)).toNat ≤ 5 := by
  refine ⟨rfl, ?_⟩
  decide
/-- DecodeOfEncodeIsTheOperation and EncodeOfDecodeIsTheItem. -/
theorem witness_round_trip : (Instr.sstart 5).wf = true ∧ decode (.write 0x4 0x00AA) = .ok (.regWrite 0x4 0x00AA) :=
  ⟨by decide, rfl⟩
/-- EventCodesAreThoseOfTheTable: the ends of both unused ranges. -/
theorem witness_unused_codes :
    (4 ≤ (0x4 : EventCode).toNat ∧ (0x4 : EventCode).toNat ≤ 7) ∧ (4 ≤ (0x7 : EventCode).toNat ∧ (0x7 : EventCode).toNat ≤ 7) ∧
    (11 ≤ (0xB : EventCode).toNat ∧ (0xB : EventCode).toNat ≤ 14) ∧
    (11 ≤ (0xE : EventCode).toNat ∧ (0xE : EventCode).toNat ≤ 14) ∧
    State.inputs { boot50 with inputs := [.event 0x4] } = [.event 0x4] := by decide
/-- StepRunsTheDecodedOperation: its three clauses. -/
theorem witness_step :
    (∃ i, State.inputs { boot50 with inputs := [.cmd 0x6000] } = [.cmd 0x6000] ∧ decode (.cmd 0x6000) = .ok i) ∧
    (∀ c, decodeCommand 0x5007 ≠ .ok c) ∧ boot50.inputs = [] := by
  have h1 : decodeCommand 0x5007 = .error .illegalLevel := rfl
  refine ⟨⟨.arm, rfl, rfl⟩, ?_, rfl⟩
  intro c h
  rw [h1] at h
  cases h
/-- FdetStartsTheMeasurementOrIsRefused: each refusal, and the start. -/
theorem witness_fdet :
    boot50.tblValid = true ∧ State.fdBusy { rst1 with fdBusy := true } = true ∧ State.zcEn { rst1 with zcEn := true } = true ∧
    rst1.tblValid = false ∧ rst1.fdBusy = false ∧ rst1.zcEn = false := by decide
/-- EdgeStepsTheDetectorAndFlagsTheSynchronizer: the two counted edges, and an edge the detector ignores. -/
theorem witness_edge :
    (let s := { rst1 with fdBusy := true }
     s.fdBusy = true ∧ s.fdPhase = .awaitFalling ∧ s.zcLvl = true) ∧
    (let s := { rst0 with fdBusy := true, fdPhase := .awaitRising }
     s.fdBusy = true ∧ s.fdPhase = .awaitRising ∧ s.zcLvl = false) ∧
    (let s := { rst0 with fdBusy := true }
     ¬(s.fdBusy = true ∧ s.fdPhase = .awaitFalling ∧ s.zcLvl = true) ∧
     ¬(s.fdBusy = true ∧ s.fdPhase = .awaitRising ∧ s.zcLvl = false)) := by decide
/-- DetectorTickCountsAndSaturates: counting at the last value, and not counting. -/
theorem witness_tick_f :
    (let s := { rst0 with fdBusy := true, fdPhase := .awaitRising, fdCount := 0xFFFF }
     s.fdBusy = true ∧ s.fdPhase = .awaitRising) ∧
    ¬(boot50.fdBusy = true ∧ boot50.fdPhase = .awaitRising) := by decide
/-- MeasurementCountsTheTicksBetweenTheEdges. -/
theorem witness_measurement :
    let s := { rst1 with fdBusy := true }
    s.fdBusy = true ∧ s.fdPhase = .awaitFalling ∧ s.zcLvl = true ∧ s.zcEn = false := by decide
/-- MeasurementWaitsForItsEdges. -/
theorem witness_waiting :
    ∃ t, State.fdBusy { rst1 with fdBusy := true } = true ∧ Instr.tickF ≠ .zcToggle ∧ Instr.tickF ≠ .reset ∧
      exec .tickF { rst1 with fdBusy := true } = .next t := ⟨_, rfl, by decide, by decide, rfl⟩
/-- SelectionIsFinal. -/
theorem witness_selection :
    ∃ t, boot50.Inv ∧ boot50.tblValid = true ∧ Instr.zcToggle ≠ .reset ∧ exec .zcToggle boot50 = .next t :=
  ⟨_, witness_inv_boot, rfl, by decide, rfl⟩
/-- ZcenEnablesDisablesOrIsRefused: both refusals, and the enable. -/
theorem witness_zcen :
    rst1.tblValid = false ∧ State.fdBusy { boot50 with fdBusy := true } = true ∧ boot50.tblValid = true ∧
    boot50.fdBusy = false := by decide
/-- ZeroCrossServiceDoesItsSixSteps: in range, and at the first sum out of range. -/
theorem witness_svc_zc :
    (let s := { atLevel 3 106 with zcF := true }
     s.cfg.wf = true ∧ s.zcF = true ∧ (201 = (if s.tblSel = .hz50 then s.cfg.tbl50 else s.cfg.tbl60).D[s.motorMode] + s.shift.toNat)) ∧
    (let s := { atLevel 0 55 with zcF := true, psm := true }
     s.cfg.wf = true ∧ s.zcF = true ∧ 256 = (if s.tblSel = .hz50 then s.cfg.tbl50 else s.cfg.tbl60).D[s.motorMode] + s.shift.toNat ∧
      10 = (if s.psm = true then ex50.P[1] else ex50.P[0])) := by decide
/-- ServicesRunExactlyWhenEnabled, at a state where each side of each clause holds. -/
theorem witness_services :
    boot50.cfg.serviceOrder = .unconstrained ∧ boot50.zcF = false ∧
    (let s := { boot50 with zcF := true, povfF := true, mcmpF := true }
     s.cfg.serviceOrder = .unconstrained ∧ s.zcF = true ∧ s.povfF = true ∧ s.mcmpF = true) := by decide
/-- TwoEdgesBeforeServiceGiveOneHalfCycle. -/
theorem witness_two_edges : boot50.zcEn = true ∧ boot50.cfg.wf = true := by decide
/-- OverflowServiceEmitsOnlyFromPending: its three clauses, under either service order. -/
theorem witness_svc_povf :
    (let s := { boot50 with povfF := true, pstate := .pending }
     s.serviceEnabled .povf = true ∧ s.pstate = .pending ∧ s.pwrEn = true) ∧
    (let s := { boot50 with povfF := true, pstate := .pending, pwrEn := false, cfg := { cfg with serviceOrder := .fixed } }
     s.serviceEnabled .povf = true ∧ s.pstate = .pending ∧ s.pwrEn = false) ∧
    (let s := { boot50 with povfF := true }
     s.serviceEnabled .povf = true ∧ s.pstate = .idle) := by decide
/-- CountdownOverflowsOnExactlyTheDthTick: the shortest and the longest delay. -/
theorem witness_countdown :
    (let s := { boot50 with tcntP := 255 }
     1 ≤ 1 ∧ 1 ≤ s.cfg.cmpMax ∧ s.tcntP = 2 ^ s.cfg.W - 1 ∧ s.povfF = false) ∧
    (let s := { boot50 with tcntP := 1 }
     1 ≤ 255 ∧ 255 ≤ s.cfg.cmpMax ∧ s.tcntP = 2 ^ s.cfg.W - 255 ∧ s.povfF = false) := by decide
/-- TimedPowerPulseComesAtItsDelay: in standby, and with PSM = 1 under either policy. -/
theorem witness_timed_power_pulse :
    (let s := { boot50 with zcF := true }
     s.cfg.wf = true ∧ s.zcF = true ∧ s.pwrEn = true ∧ s.povfF = false ∧ 180 = powerDelay s.table s.psm ∧
      [] = (if s.psm = true then [(⟨.pwr, s.hc + 1, 2 ^ s.cfg.W - 180, 0⟩ : Pulse)] else []) ∧ 179 < 180) ∧
    (∀ p : ForcePolicy, p = .replace ∨ p = .additional →
      let s := { boot50 with zcF := true, psm := true, cfg := { cfg with forcePolicy := p } }
      s.cfg.wf = true ∧ s.zcF = true ∧ s.pwrEn = true ∧ s.povfF = false ∧ 10 = powerDelay s.table s.psm ∧
      [⟨.pwr, 1, 246, 0⟩] = (if s.psm = true then [(⟨.pwr, s.hc + 1, 2 ^ s.cfg.W - 10, 0⟩ : Pulse)] else [])) := by
  refine ⟨by decide, ?_⟩
  rintro p (rfl | rfl) <;> decide
/-- ArmDiscardsTheStaleMatchOnce: both clauses. -/
theorem witness_arm : boot50.motArm = false ∧ State.motArm { boot50 with motArm := true } = true := by decide
/-- MatchServiceEmitsOnlyArmedAndPending: its three clauses. -/
theorem witness_svc_mcmp :
    (let s := { boot50 with mcmpF := true, motArm := true, mstate := .pending }
     s.serviceEnabled .mcmp = true ∧ s.motArm = true ∧ s.mstate = .pending) ∧
    (let s := { boot50 with mcmpF := true, motArm := true }
     s.serviceEnabled .mcmp = true ∧ s.motArm = true ∧ s.mstate = .idle) ∧
    (let s := { boot50 with mcmpF := true }
     s.serviceEnabled .mcmp = true ∧ s.motArm = false) := by decide
/-- MatchComesOnExactlyTheCthTick: the compare values 0, 1 and CMP_MAX. -/
theorem witness_match :
    ∀ c : Nat, c = 0 ∨ c = 1 ∨ c = 255 →
      let s := { boot50 with ocrM := c }
      s.tcntM = 0 ∧ s.mcmpF = false ∧ s.ocrM < 2 ^ s.cfg.W := by
  rintro c (rfl | rfl | rfl) <;> decide
/-- MotorPulseComesAtTheCompareDelay: at the shortest delay and at CMP_MAX. -/
theorem witness_motor_pulse :
    (let s := { atLevel 5 0 with cfg := { cfg with tbl50 := exEdge }, zcF := true, motArm := true }
     s.cfg.wf = true ∧ s.zcF = true ∧ s.mcmpF = false ∧ s.povfF = false ∧ s.motArm = true ∧
      1 = motorDelay s.table s.motorMode + s.shift.toNat ∧ 1 ≤ s.cfg.cmpMax ∧ 0 < 1) ∧
    (let s := { atLevel 0 54 with zcF := true, motArm := true }
     s.cfg.wf = true ∧ s.zcF = true ∧ s.mcmpF = false ∧ s.povfF = false ∧ s.motArm = true ∧
      255 = motorDelay s.table s.motorMode + s.shift.toNat ∧ 255 ≤ s.cfg.cmpMax) := by decide
/-- StaleMatchFiresAtTheZeroCrossing. -/
theorem witness_stale :
    let s := { boot50 with zcF := true, mcmpF := true, motArm := true }
    s.cfg.wf = true ∧ s.cfg.serviceOrder = .unconstrained ∧ s.zcF = true ∧ s.mcmpF = true ∧ s.motArm = true := by decide
/-- SstartSetsTheLevelAndTheEvenSpan: levels 1 and 5, refused and accepted. -/
theorem witness_sstart :
    ((1 : Fin 6).val = (1 : BitVec 3).toNat ∧ 1 ≤ (1 : BitVec 3).toNat ∧ (1 : BitVec 3).toNat ≤ 5) ∧
    ((5 : Fin 6).val = (5 : BitVec 3).toNat ∧ 1 ≤ (5 : BitVec 3).toNat ∧ (5 : BitVec 3).toNat ≤ 5) ∧
    rst1.tblValid = false ∧ boot50.tblValid = true ∧ boot50.cfg.wf = true ∧
    171 = motorDelay boot50.table 0 - motorDelay boot50.table 5 := by decide
/-- MincRebasesOntoTheNextLevel: both refusals, the ceiling, and the lowest and highest level it raises. -/
theorem witness_minc :
    (rst1.tblValid = false ∧ boot50.motorMode.val = 0) ∧
    ((atLevel 5 0).tblValid = true ∧ (atLevel 5 0).motorMode.val = 5) ∧
    (let s := atLevel 1 42
     s.tblValid = true ∧ s.cfg.wf = true ∧ 1 ≤ s.motorMode.val ∧ (2 : Fin 6).val = s.motorMode.val + 1 ∧
      35 = motorDelay s.table s.motorMode - motorDelay s.table 2 ∧ 78 = s.shift.toNat + (35 + 35 % 2)) ∧
    (let s := atLevel 4 0xFFF0
     s.tblValid = true ∧ s.cfg.wf = true ∧ 1 ≤ s.motorMode.val ∧ (5 : Fin 6).val = s.motorMode.val + 1 ∧
      31 = motorDelay s.table s.motorMode - motorDelay s.table 5 ∧ 65552 = s.shift.toNat + (31 + 31 % 2)) := by decide
/-- MdecRebasesOnlyWhileMidRamp: both refusals, the floor, and the two cases at the delta. -/
theorem witness_mdec :
    (rst1.tblValid = false ∧ boot50.motorMode.val = 0) ∧
    ((atLevel 1 0).tblValid = true ∧ (atLevel 1 0).motorMode.val = 1) ∧
    (let s := atLevel 3 32
     s.tblValid = true ∧ s.cfg.wf = true ∧ s.motorMode.val = (2 : Fin 6).val + 1 ∧ 1 ≤ (2 : Fin 6).val ∧
      30 = motorDelay s.table 2 - motorDelay s.table s.motorMode ∧ 30 < s.shift.toNat) ∧
    (let s := atLevel 3 30
     s.tblValid = true ∧ s.cfg.wf = true ∧ s.motorMode.val = (2 : Fin 6).val + 1 ∧ 1 ≤ (2 : Fin 6).val ∧
      30 = motorDelay s.table 2 - motorDelay s.table s.motorMode ∧ s.shift.toNat ≤ 30) := by decide
/-- RampUnwindsByTwoEachHalfCycle. -/
theorem witness_ramp : (atLevel 1 42).Inv ∧ (atLevel 1 42).zcEn = true := ⟨witness_inv 1 42 (by decide), rfl⟩
/-- LevelChangesRebaseTheCompareTarget: up, at the greatest shift that fits, with the mark set before, and at the least that
does not fit; down with and without the correction. -/
theorem witness_level_changes :
    (∃ t, let s := { atLevel 4 0xFFDE with fault := true }
      s.cfg.wf = true ∧ s.tblValid = true ∧ 1 ≤ s.motorMode.val ∧ s.motorMode.val ≤ 4 ∧ exec .minc s = .next t ∧
      31 = motorDelay s.table s.motorMode - motorDelay t.table t.motorMode ∧ s.shift.toNat + (31 + 31 % 2) ≤ 0xFFFF) ∧
    (∃ t, let s := atLevel 4 0xFFE0
      exec .minc s = .next t ∧ 31 = motorDelay s.table s.motorMode - motorDelay t.table t.motorMode ∧
      0xFFFF < s.shift.toNat + (31 + 31 % 2)) ∧
    (∃ t, 2 ≤ (atLevel 2 36).motorMode.val ∧ exec .mdec (atLevel 2 36) = .next t ∧
      35 = motorDelay t.table t.motorMode - motorDelay (atLevel 2 36).table (atLevel 2 36).motorMode ∧
      35 < (atLevel 2 36).shift.toNat) ∧
    (∃ t, 2 ≤ (atLevel 2 34).motorMode.val ∧ exec .mdec (atLevel 2 34) = .next t ∧
      35 = motorDelay t.table t.motorMode - motorDelay (atLevel 2 34).table (atLevel 2 34).motorMode ∧
      (atLevel 2 34).shift.toNat ≤ 35) :=
  ⟨⟨_, by decide, rfl, by decide, by decide, rfl, by decide, by decide⟩, ⟨_, rfl, by decide, by decide⟩, ⟨_, by decide, rfl, by decide, by decide⟩,
    ⟨_, by decide, rfl, by decide, by decide⟩⟩
/-- LevelUpThenDownMidRampReturnsTheState. -/
theorem witness_round_trip_of_levels :
    let s := atLevel 4 2
    s.cfg.wf = true ∧ s.tblValid = true ∧ 1 ≤ s.motorMode.val ∧ s.motorMode.val ≤ 4 ∧
      0 < s.shift.toNat ∧ s.shift.toNat + s.cfg.cmpMax ≤ 0xFFFF := by decide
/-- ReopeningTheFilterRestartsTheSameRamp: disarmed, and armed already. -/
theorem witness_reopening :
    boot50.cfg.wf = true ∧ boot50.tblValid = true ∧ (5 : Fin 6).val = (5 : BitVec 3).toNat ∧ 1 ≤ (5 : Fin 6).val ∧
      (5 : Fin 6).val ≤ 5 ∧ boot50.motArm = false ∧ State.motArm { boot50 with motArm := true } = true := by decide
/-- EveryStepKeepsTheInvariant: a state that meets it and steps. -/
theorem witness_step_of_inv : ∃ s t : State, s.Inv ∧ s.inputs ≠ [] ∧ step s = .next t := by
  refine ⟨{ boot50 with inputs := [.cmd 0x5001] }, _, ?_, by decide, rfl⟩
  constructor <;> decide
/-- EveryStepKeepsThePulseBound: a state that meets it, with a pulse already emitted and one still allowed, and steps. -/
theorem witness_step_of_pulse_inv : ∃ s t : State, s.PulseInv ∧ s.inputs ≠ [] ∧ step s = .next t := by
  refine ⟨{ boot50 with
    inputs := [.event 0x9]
    hc := 1
    trace := [⟨.mot, 1, 76, 202⟩]
    pstate := .pending
    povfF := true }, _, ?_, by decide, rfl⟩
  constructor
  · decide
  · decide
  · exact fun h => Nat.le_trans (List.countP_le_length) (by decide)
  · decide
  · exact fun h => Nat.le_trans (List.countP_le_length) (by decide)
/-- PulseAllowanceNeverGrowsWithinAHalfCycle: both clauses. -/
theorem witness_allowance :
    (∃ t, Instr.tickM ≠ .svcZc ∧ Instr.tickM ≠ .reset ∧ exec .tickM boot50 = .next t) ∧
    (∃ t, let s := { boot50 with zcF := true, hc := 1, trace := [⟨.mot, 1, 76, 202⟩] }
      (∀ r ∈ s.trace, r.hc ≤ s.hc) ∧ exec .svcZc s = .next t ∧ s.psm = false ∧ s.cfg.forcePolicy = .replace) :=
  ⟨⟨_, by decide, by decide, rfl⟩, ⟨_, by decide, rfl, rfl, rfl⟩⟩
/-- DisabledSchedulersEmitNothing. -/
theorem witness_disabled :
    ∃ t, let s := { boot50 with pwrEn := false, povfF := true, pstate := .pending }
      Instr.svcPovf ≠ .reset ∧ exec .svcPovf s = .next t ∧ s.pwrEn = false ∧ s.motArm = false :=
  ⟨_, by decide, rfl, rfl, rfl⟩
/-- EveryEnabledStepCompletes: a service and a command. -/
theorem witness_enabled :
    boot50.cfg.wf = true ∧ enabled .svcMcmp { boot50 with mcmpF := true } = true ∧ enabled .minc boot50 = true := by decide
/-- OnlyDisabledServicesAndForeignTablesAreRefused: both reasons occur, the second for each level command and through
CMD, and the premises of the last two clauses. -/
theorem witness_refused :
    exec .svcZc boot50 = .refused .serviceNotEnabled ∧
    (let s := { boot50 with cfg := { cfg with tbl50 := ⟨#v[180, 10], #v[1, 2, 3, 4, 5, 6]⟩ }, motorMode := 2 }
     s.cfg.wf = false ∧ performs (.regWrite 0 0x5001) = .sstart 1 ∧
     exec (.sstart 1) s = .refused .tableOutsideSpec ∧ exec (.regWrite 0 0x5001) s = .refused .tableOutsideSpec ∧
     exec .minc s = .refused .tableOutsideSpec ∧ exec .mdec s = .refused .tableOutsideSpec) ∧
    boot50.quiescent = true ∧
    (State.cfg { boot50 with cfg := { cfg with serviceOrder := .fixed } }).serviceOrder = .fixed :=
  ⟨rfl, ⟨by decide, by decide, rfl, rfl, rfl, rfl⟩, rfl, rfl⟩
/-- MarksAreStickyAndSetOnlyByTheirCodes: a step of each code that sets a mark. -/
theorem witness_marks :
    (∃ t, boot50.cfg.wf = true ∧ Instr.minc ≠ .reset ∧ exec .minc boot50 = .next t) ∧
    outcomeCode .minc boot50 = some .refusedState ∧ outcomeCode (.regWrite 0 0x5006) boot50 = some .refusedDecode ∧
    outcomeCode .svcZc { atLevel 0 56 with zcF := true } = some .faultCmpRange ∧
    outcomeCode .minc (atLevel 1 0xFFF0) = some .faultShiftRange :=
  ⟨⟨_, by decide, by decide, rfl⟩, by decide, by decide, by decide, by decide⟩
/-- ParametersAndScheduleAreNeverWritten. -/
theorem witness_unwritten : ∃ t, exec .reset boot50 = .next t ∧ ∀ idx, Instr.reset ≠ .regRead idx :=
  ⟨_, rfl, fun _ => Instr.noConfusion⟩
/-- ControllerStateHasOnlyItsWriters: a step that changes each field. -/
theorem witness_writers :
    (∃ t, Instr.setpsm true ≠ .reset ∧ exec (.setpsm true) boot50 = .next t ∧ t.psm ≠ boot50.psm) ∧
    (∃ t, exec (.sstart 2) boot50 = .next t ∧ t.motorMode ≠ boot50.motorMode ∧ t.shift ≠ boot50.shift) ∧
    (∃ t, exec .arm boot50 = .next t ∧ t.motArm ≠ boot50.motArm) ∧
    (∃ t, exec (.zcen false) boot50 = .next t ∧ t.zcEn ≠ boot50.zcEn) ∧
    (∃ t, exec (.pwren false) boot50 = .next t ∧ t.pwrEn ≠ boot50.pwrEn) :=
  ⟨⟨_, by decide, rfl, by decide⟩, ⟨_, rfl, by decide, by decide⟩, ⟨_, rfl, by decide⟩, ⟨_, rfl, by decide⟩,
    ⟨_, rfl, by decide⟩⟩
/-- PendingFlagsHaveOnlyTheirSettersAndClearers: each flag set, and each cleared. -/
theorem witness_flags :
    (∃ t, Instr.zcToggle ≠ .reset ∧ exec .zcToggle boot50 = .next t ∧ boot50.zcF = false ∧ t.zcF = true) ∧
    (∃ t, exec (.zcen false) { boot50 with zcF := true } = .next t ∧ t.zcF = false) ∧
    (∃ t, exec .tickP { boot50 with tcntP := 255 } = .next t ∧ boot50.povfF = false ∧ t.povfF = true) ∧
    (∃ t, exec .svcPovf { boot50 with povfF := true } = .next t ∧ t.povfF = false) ∧
    (∃ t, exec .tickM { boot50 with tcntM := 254 } = .next t ∧ boot50.mcmpF = false ∧ t.mcmpF = true) ∧
    (∃ t, exec .arm { boot50 with mcmpF := true } = .next t ∧ t.mcmpF = false) :=
  ⟨⟨_, by decide, rfl, rfl, rfl⟩, ⟨_, rfl, rfl⟩, ⟨_, rfl, rfl, by decide⟩, ⟨_, rfl, rfl⟩, ⟨_, rfl, rfl, by decide⟩,
    ⟨_, rfl, rfl⟩⟩
/-- LevelStaysActiveAfterSstart: both clauses. -/
theorem witness_level :
    (∃ t, Instr.mdec ≠ .reset ∧ exec .mdec (atLevel 1 0) = .next t ∧ (atLevel 1 0).motorMode ≠ 0) ∧
    (∃ t, exec (.sstart 5) boot50 = .next t ∧ (Instr.sstart 5).wf = true ∧ boot50.tblValid = true) :=
  ⟨⟨_, by decide, rfl, by decide⟩, ⟨_, rfl, by decide, rfl⟩⟩
/-- TimerServicesCommuteUpToTraceOrder: V-X5 under ADDITIONAL, where both services emit. -/
theorem witness_commute :
    let s := { boot50 with povfF := true, mcmpF := true, motArm := true, pstate := .pending, mstate := .pending }
    s.cfg.serviceOrder = .unconstrained ∧ s.povfF = true ∧ s.mcmpF = true := by decide

end Sys2Proof.Tests
end

section
/-!
PROOFS. The register views of 10_state.md R29 to R32 and the reset values of R33: what each index of the register map
shows, one lemma per register, and the four statements assembled from them.
-/

namespace Sys2Proof.Machine

/-! ## The register map: the view of each index is the field or the view it names (20_memory.md R52) -/

@[simp] theorem view_cmd (s : State) : view s 0 = 0 := rfl
@[simp] theorem view_status (s : State) : view s 1 = statusView s := rfl
@[simp] theorem view_mode (s : State) : view s 2 = modeView s := rfl
@[simp] theorem view_shift (s : State) : view s 3 = s.shift := rfl
@[simp] theorem view_tcntP (s : State) : view s 4 = counterView s.cfg s.tcntP := rfl
@[simp] theorem view_tcntM (s : State) : view s 5 = counterView s.cfg s.tcntM := rfl
@[simp] theorem view_ocrM (s : State) : view s 6 = counterView s.cfg s.ocrM := rfl
@[simp] theorem view_fdCount (s : State) : view s 7 = s.fdCount := rfl

/-! ## The one-bit codes of STATUS: each reads 1 in exactly one of its two values -/

theorem tblSelBit_eq_decide (t : TableSel) : tblSelBit t = decide (t = .hz50) := by cases t <;> rfl

theorem fdPhaseBit_eq_decide (p : FdPhase) : fdPhaseBit p = decide (p = .awaitRising) := by cases p <;> rfl

theorem schedBit_eq_decide (p : SchedState) : schedBit p = decide (p = .pending) := by cases p <;> rfl

/-- Settles O3: each bit of the view is the entry of `statusView_getLsbD`'s list at that place, and the three enumerated
fields read through their one-bit codes. -/
theorem statusShowsEachFieldAtItsBit : Obligations.StatusShowsEachFieldAtItsBit := by
  intro s
  simp only [view_status, statusView_getLsbD, ← tblSelBit_eq_decide, ← fdPhaseBit_eq_decide, ← schedBit_eq_decide]
  and_intros <;> rfl

/-- MOTOR_MODE and bit 8 together fit the word, so MODE truncates nothing (10_state.md R30). -/
theorem modeView_toNat (s : State) : (modeView s).toNat = s.motorMode.val + (if s.psm = true then 256 else 0) := by
  have hlevel := s.motorMode.isLt
  rw [modeView, BitVec.toNat_ofNat]
  apply Nat.mod_eq_of_lt
  split <;> omega

/-- Settles O4: the MODE register is `modeView`, read as a number. -/
theorem modeShowsLevelAndPowerMode : Obligations.ModeShowsLevelAndPowerMode :=
  fun s => modeView_toNat s

/-- Neither the reduction modulo `2^W` nor the 16-bit word truncates a W-bit value (10_state.md R31). -/
theorem counterView_toNat {c : Params} {x : Nat} (hW : c.W ≤ 16) (hx : x < 2 ^ c.W) : (counterView c x).toNat = x := by
  have hword : x < 2 ^ 16 := hx.trans_le (Nat.pow_le_pow_right (by decide) hW)
  rw [counterView, wrapW_of_lt hx, BitVec.toNat_ofNat, Nat.mod_eq_of_lt hword]

/-- Bits 15:W of a W-bit register read 0 (10_state.md R31), whatever number the field holds. -/
theorem counterView_getLsbD_of_le {c : Params} (x : Nat) {j : Nat} (hj : c.W ≤ j) :
    (counterView c x).getLsbD j = false := by
  have hlow : wrapW c x < 2 ^ j := (wrapW_lt c x).trans_le (Nat.pow_le_pow_right (by decide) hj)
  rw [counterView, BitVec.getLsbD_ofNat, Nat.testBit_lt_two_pow hlow, Bool.and_false]

/-- Settles O5: CMD, SHIFT and FD_COUNT by the register map, the three W-bit registers by the two facts about
`counterView`. -/
theorem valueRegistersShowTheirFields : Obligations.ValueRegistersShowTheirFields := by
  refine fun s => ⟨view_cmd s, view_shift s, view_fdCount s, fun hW hP hM hO => ?_⟩
  simp only [view_tcntP, view_tcntM, view_ocrM]
  exact ⟨counterView_toNat hW hP, counterView_toNat hW hM, counterView_toNat hW hO, fun j hj =>
    ⟨counterView_getLsbD_of_le _ hj, counterView_getLsbD_of_le _ hj, counterView_getLsbD_of_le _ hj⟩⟩

/-! ## The two reset values that a parameter gives (10_state.md R33) -/

@[simp] theorem State.resetWith_ocrM (c : Params) : (State.resetWith c).ocrM = 2 ^ c.W - 1 := rfl
@[simp] theorem State.resetWith_zcLvl (c : Params) : (State.resetWith c).zcLvl = c.zcLvl0 := rfl

/-- Settles O47: OCR_M and ZC_LVL follow the parameters; every other field is the constant that `State.resetWith`
writes. -/
theorem stateAfterResetHoldsTheResetValues : Obligations.StateAfterResetHoldsTheResetValues := by
  refine ⟨State.resetWith_ocrM _, State.resetWith_zcLvl _, ?_⟩
  and_intros <;> rfl

end Sys2Proof.Machine
end

section
/-!
PROOFS. The command words of 30_encoding.md R66 to R72: what each operand form accepts, the opcode map read field by
field, the decoder against both, and the refusal of every other word.
-/

namespace Sys2Proof

/-! ## The fields of a word (R66) -/

/-- A field inside ARG lies at the same place in the word. -/
theorem extractLsb'_cmdArg (w : Word) {i n : Nat} (h : i + n ≤ 12) :
    (cmdArg w).extractLsb' i n = w.extractLsb' i n := by
  ext j hj
  have hin : i + j < 12 := by omega
  simp [cmdArg, hin]

/-- OP and ARG are independent: a word determines both. -/
theorem cmdWord_inj {op op' : BitVec 4} {arg arg' : CmdArg} :
    cmdWord op arg = cmdWord op' arg' ↔ op = op' ∧ arg = arg' := by
  refine ⟨fun h => ?_, fun ⟨hop, harg⟩ => by rw [hop, harg]⟩
  exact ⟨by simpa using congrArg cmdOp h, by simpa using congrArg cmdArg h⟩

theorem cmdWord_and (op op' : BitVec 4) (arg arg' : CmdArg) :
    cmdWord op arg &&& cmdWord op' arg' = cmdWord (op &&& op') (arg &&& arg') :=
  BitVec.and_append

/-- The bits that a mask of the upper `n` bits leaves are zero when the masked word is. -/
theorem extractLsb'_eq_zero_of_and {n k : Nat} {x : BitVec (n + k)} (h : x &&& (BitVec.allOnes n ++ 0#k) = 0) :
    x.extractLsb' k n = 0 := by
  ext i hi
  have hbit := congrArg (fun y => y.getLsbD (k + i)) h
  simpa [BitVec.getLsbD_append, hi] using hbit

/-! ## The opcode map, field by field (R68) -/

/-- Every row fixes the whole OP, and its ARG bits are 0 wherever the mask looks. -/
theorem opRow_fields : ∀ r ∈ opRows,
    r.base = cmdWord (cmdOp r.base) 0 ∧ r.mask = cmdWord (BitVec.allOnes 4) (cmdArg r.mask) := by decide

theorem spells_iff {r : OpRow} (hr : r ∈ opRows) (w : Word) :
    r.spells w = true ↔ cmdOp w = cmdOp r.base ∧ cmdArg w &&& cmdArg r.mask = 0 := by
  obtain ⟨hbase, hmask⟩ := opRow_fields r hr
  calc r.spells w = true
      ↔ w &&& r.mask = r.base := beq_iff_eq
    _ ↔ cmdWord (cmdOp w) (cmdArg w) &&& cmdWord (BitVec.allOnes 4) (cmdArg r.mask) = cmdWord (cmdOp r.base) 0 := by
        rw [cmdWord_fields, ← hmask, ← hbase]
    _ ↔ cmdOp w = cmdOp r.base ∧ cmdArg w &&& cmdArg r.mask = 0 := by
        rw [cmdWord_and, cmdWord_inj, BitVec.and_allOnes]

/-- No two rows have one OP. -/
theorem opRows_pairwise_op : opRows.Pairwise (fun a b => cmdOp a.base ≠ cmdOp b.base) := by decide

theorem opRows_disjoint : opRows.Pairwise (fun a b => ∀ w, ¬(a.spells w = true ∧ b.spells w = true)) := by
  refine opRows_pairwise_op.imp_of_mem fun ha hb hne w ⟨hwa, hwb⟩ => hne ?_
  exact ((spells_iff ha w).1 hwa).1.symm.trans ((spells_iff hb w).1 hwb).1

/-! ## What each operand form accepts (R67, R70) -/

theorem noOperand_eq_ok {arg : CmdArg} {i c : Instr} : noOperand arg i = .ok c ↔ arg = 0 ∧ i = c := by
  unfold noOperand
  split <;> simp_all

theorem bitOperand_eq_ok {arg : CmdArg} {mk : Bool → Instr} {c : Instr} :
    bitOperand arg mk = .ok c ↔ arg.extractLsb' 1 11 = 0 ∧ mk (arg.getLsbD 0) = c := by
  unfold bitOperand
  split <;> simp_all

theorem levelOperand_eq_ok {arg : CmdArg} {c : Instr} :
    levelOperand arg = .ok c ↔ arg.extractLsb' 3 9 = 0 ∧
      (1 ≤ (arg.extractLsb' 0 3).toNat ∧ (arg.extractLsb' 0 3).toNat ≤ 5) ∧ .sstart (arg.extractLsb' 0 3) = c := by
  unfold levelOperand
  split <;> [split; skip] <;> simp_all

/-! ## What decodes is encoded back to its word (R72) -/

/-- A field whose bits from `k` up are 0 is below `2 ^ k`. -/
theorem toNat_lt_of_extractLsb'_eq_zero {k n : Nat} {x : BitVec (k + n)} (h : x.extractLsb' k n = 0) :
    x.toNat < 2 ^ k := by
  have hzero : x.toNat / 2 ^ k % 2 ^ n = 0 := by
    simpa [Nat.shiftRight_eq_div_pow] using congrArg BitVec.toNat h
  have hlt : x.toNat / 2 ^ k < 2 ^ n := Nat.div_lt_of_lt_mul (by rw [← Nat.pow_add]; exact x.isLt)
  rw [Nat.mod_eq_of_lt hlt] at hzero
  exact Nat.lt_of_div_eq_zero (Nat.two_pow_pos k) hzero

theorem bitArg_getLsbD_zero {arg : CmdArg} (h : arg.extractLsb' 1 11 = 0) : bitArg (arg.getLsbD 0) = arg := by
  have hlt : arg.toNat < 2 := toNat_lt_of_extractLsb'_eq_zero h
  apply BitVec.eq_of_toNat_eq
  rw [BitVec.getLsbD, Nat.testBit_zero]
  interval_cases arg.toNat <;> rfl

theorem setWidth_extractLsb' {arg : CmdArg} (h : arg.extractLsb' 3 9 = 0) : (arg.extractLsb' 0 3).setWidth 12 = arg := by
  have hlt : arg.toNat < 8 := toNat_lt_of_extractLsb'_eq_zero h
  apply BitVec.eq_of_toNat_eq
  rw [BitVec.toNat_setWidth, BitVec.extractLsb'_toNat, Nat.shiftRight_zero]
  omega

theorem encode_of_noOperand {op : BitVec 4} {arg : CmdArg} {i c : Instr} (hi : encode i = .cmd (cmdWord op 0))
    (h : noOperand arg i = .ok c) : encode c = .cmd (cmdWord op arg) := by
  obtain ⟨rfl, rfl⟩ := noOperand_eq_ok.1 h
  exact hi

theorem encode_of_bitOperand {op : BitVec 4} {arg : CmdArg} {mk : Bool → Instr} {c : Instr}
    (hmk : ∀ b, encode (mk b) = .cmd (cmdWord op (bitArg b))) (h : bitOperand arg mk = .ok c) :
    encode c = .cmd (cmdWord op arg) := by
  obtain ⟨harg, rfl⟩ := bitOperand_eq_ok.1 h
  rw [hmk, bitArg_getLsbD_zero harg]

theorem encode_of_levelOperand {arg : CmdArg} {c : Instr} (h : levelOperand arg = .ok c) :
    encode c = .cmd (cmdWord 0x5 arg) := by
  obtain ⟨harg, -, rfl⟩ := levelOperand_eq_ok.1 h
  rw [encode, setWidth_extractLsb' harg]

theorem encode_of_decodeFields {op : BitVec 4} {arg : CmdArg} {c : Instr} (h : decodeFields op arg = .ok c) :
    encode c = .cmd (cmdWord op arg) := by
  obtain ⟨⟨k, hk⟩⟩ := op
  interval_cases k
  · exact encode_of_noOperand rfl h
  · exact encode_of_noOperand rfl h
  · exact encode_of_bitOperand (fun _ => rfl) h
  · exact encode_of_bitOperand (fun _ => rfl) h
  · exact encode_of_bitOperand (fun _ => rfl) h
  · exact encode_of_levelOperand h
  · exact encode_of_noOperand rfl h
  · exact encode_of_noOperand rfl h
  · exact encode_of_noOperand rfl h
  · exact encode_of_noOperand rfl h
  all_goals
    cases h
    rfl

theorem encode_of_decodeCommand {w : Word} {c : Instr} (h : decodeCommand w = .ok c) : encode c = .cmd w := by
  rw [encode_of_decodeFields h, cmdWord_fields]

/-! ## The decoder against the opcode map -/

/-- Every operation stands in its row of the table. -/
theorem tableRow_statement (i : Instr) : Laws.TableRow.Statement i := by
  open Laws.TableRow in
  cases i
  exacts [nop, fdet, zcen _, pwren _, setpsm _, sstart _, arm, disarm, minc, mdec, reservedOpA _, reservedOpB _,
    reservedOpC _, reservedOpD _, reservedOpE _, reservedOpF _, regRead _, regWrite _ _, zcToggle, tickP, tickM, tickF,
    svcZc, svcPovf, svcMcmp, reset]

theorem row_of_decodeCommand {w : Word} {c : Instr} (h : decodeCommand w = .ok c) :
    ∃ r ∈ opRows, r.spells w = true ∧ r.mnemonic = c.mnemonic := by
  have hrow := tableRow_statement c
  rw [Laws.TableRow.Statement, encode_of_decodeCommand h] at hrow
  obtain ⟨r, hr, hname, hspells⟩ := hrow
  exact ⟨r, hr, hspells, hname⟩

theorem noOperand_of_and {arg : CmdArg} (i : Instr) (h : arg &&& BitVec.allOnes 12 = 0) : noOperand arg i = .ok i :=
  noOperand_eq_ok.2 ⟨by rwa [BitVec.and_allOnes] at h, rfl⟩

theorem bitOperand_of_and {arg : CmdArg} (mk : Bool → Instr) (h : arg &&& 0xFFE = 0) :
    bitOperand arg mk = .ok (mk (arg.getLsbD 0)) :=
  bitOperand_eq_ok.2 ⟨extractLsb'_eq_zero_of_and h, rfl⟩

theorem levelOperand_of_and {arg : CmdArg} (h : arg &&& 0xFF8 = 0)
    (hlevel : 1 ≤ (arg.extractLsb' 0 3).toNat ∧ (arg.extractLsb' 0 3).toNat ≤ 5) :
    levelOperand arg = .ok (.sstart (arg.extractLsb' 0 3)) :=
  levelOperand_eq_ok.2 ⟨extractLsb'_eq_zero_of_and h, hlevel, rfl⟩

/-- A word that spells a row decodes to that row's operation; in the SSTART row, if its level is one of 1..5. -/
theorem decodeCommand_of_spells {w : Word} {r : OpRow} (hr : r ∈ opRows) (hspells : r.spells w = true)
    (hlevel : r.mnemonic = "SSTART" → 1 ≤ (w.extractLsb' 0 3).toNat ∧ (w.extractLsb' 0 3).toNat ≤ 5) :
    ∃ c, decodeCommand w = .ok c ∧ c.mnemonic = r.mnemonic := by
  obtain ⟨hop, harg⟩ := (spells_iff hr w).1 hspells
  rw [← extractLsb'_cmdArg w (by decide)] at hlevel
  rw [decodeCommand, hop]
  generalize cmdArg w = arg at harg hlevel
  clear hspells hop
  fin_cases hr
  · exact ⟨_, noOperand_of_and .nop harg, rfl⟩
  · exact ⟨_, noOperand_of_and .fdet harg, rfl⟩
  · exact ⟨_, bitOperand_of_and .zcen harg, rfl⟩
  · exact ⟨_, bitOperand_of_and .pwren harg, rfl⟩
  · exact ⟨_, bitOperand_of_and .setpsm harg, rfl⟩
  · exact ⟨_, levelOperand_of_and harg (hlevel rfl), rfl⟩
  · exact ⟨_, noOperand_of_and .arm harg, rfl⟩
  · exact ⟨_, noOperand_of_and .disarm harg, rfl⟩
  · exact ⟨_, noOperand_of_and .minc harg, rfl⟩
  · exact ⟨_, noOperand_of_and .mdec harg, rfl⟩
  all_goals exact ⟨_, rfl, rfl⟩

/-- Settles O10: what decodes is encoded back to its word, so it stands in that word's row; a spelled row fixes OP and
the masked ARG bits, which is what its operand form asks for; and no two rows share an OP. -/
theorem decodeFollowsTheOpcodeMap : Obligations.DecodeFollowsTheOpcodeMap :=
  ⟨fun _ _ => row_of_decodeCommand, fun _ _ => decodeCommand_of_spells, opRows_disjoint⟩

/-! ## What the decoder rejects or reserves (R69, R70) -/

theorem decodeFields_error_of_noOperand {op : BitVec 4} {arg : CmdArg} (hop : op.toNat ∈ [0, 1, 6, 7, 8, 9])
    (harg : arg ≠ 0) : decodeFields op arg = .error .reservedArgBit := by
  simp only [List.mem_cons, List.not_mem_nil, or_false] at hop
  rcases hop with h | h | h | h | h | h <;> simpa [decodeFields, h, noOperand] using harg

theorem decodeFields_error_of_bitOperand {op : BitVec 4} {arg : CmdArg} (hop : op.toNat ∈ [2, 3, 4])
    (harg : arg.extractLsb' 1 11 ≠ 0) : decodeFields op arg = .error .reservedArgBit := by
  simp only [List.mem_cons, List.not_mem_nil, or_false] at hop
  rcases hop with h | h | h <;> simpa [decodeFields, h, bitOperand] using harg

theorem decodeFields_error_of_levelOperand {op : BitVec 4} {arg : CmdArg} (hop : op.toNat = 5)
    (harg : arg.extractLsb' 3 9 ≠ 0 ∨ (arg.extractLsb' 0 3).toNat ∈ [0, 6, 7]) :
    ∃ e, decodeFields op arg = .error e := by
  have hform : decodeFields op arg = levelOperand arg := by simp [decodeFields, hop]
  rw [hform, levelOperand]
  split
  case isFalse => exact ⟨_, rfl⟩
  case isTrue hzero =>
    have hlevel := harg.resolve_left (not_not.2 hzero)
    simp only [List.mem_cons, List.not_mem_nil, or_false] at hlevel
    exact ⟨_, if_neg (by omega)⟩

end Sys2Proof

namespace Sys2Proof.Machine

/-! ## A write to CMD (40_command_interface.md R88, R89) -/

@[simp] theorem exec_regWrite_cmd (w : Word) (s : State) : exec (.regWrite 0 w) s = cmdWrite w s := rfl

theorem cmdWrite_of_ok {w : Word} {c : Instr} (h : decodeCommand w = .ok c) (s : State) :
    cmdWrite w s = execCommand c s := by
  rw [cmdWrite, h]

theorem cmdWrite_of_error {w : Word} {e : DecodeReject} (h : decodeCommand w = .error e) (s : State) :
    cmdWrite w s = .next s.refuse := by
  rw [cmdWrite, h]
  obtain rfl | rfl := decodeFields_error h <;> rfl

/-- The OPs 0xA to 0xF are reserved: their operation is the refusal (30_encoding.md R69). -/
theorem decodeFields_reserved {op : BitVec 4} (hop : 10 ≤ op.toNat) (arg : CmdArg) :
    ∃ c, decodeFields op arg = .ok c ∧ ∀ s, execCommand c s = .next s.refuse := by
  obtain ⟨⟨k, hk⟩⟩ := op
  change 10 ≤ k at hop
  interval_cases k
  all_goals exact ⟨_, rfl, fun _ => rfl⟩

/-- Settles O6: the reserved operations are the refusal by their own rule; a write to CMD of a reserved OP runs one of
them, and each other word of the statement is rejected by the decoder. -/
theorem refusedWordsOnlySetTheMark : Obligations.RefusedWordsOnlySetTheMark := by
  refine ⟨fun s arg => ⟨rfl, rfl, rfl, rfl, rfl, rfl⟩, fun s w h => ?_⟩
  rw [exec_regWrite_cmd]
  simp only [← extractLsb'_cmdArg w (show 1 + 11 ≤ 12 by decide), ← extractLsb'_cmdArg w (show 3 + 9 ≤ 12 by decide),
    ← extractLsb'_cmdArg w (show 0 + 3 ≤ 12 by decide)] at h
  rcases h with hres | ⟨hop, harg⟩ | ⟨hop, harg⟩ | ⟨hop, harg⟩
  · obtain ⟨c, hc, hexec⟩ := decodeFields_reserved hres (cmdArg w)
    exact (cmdWrite_of_ok hc s).trans (hexec s)
  · exact cmdWrite_of_error (decodeFields_error_of_noOperand hop harg) s
  · exact cmdWrite_of_error (decodeFields_error_of_bitOperand hop harg) s
  · obtain ⟨e, he⟩ := decodeFields_error_of_levelOperand hop harg
    exact cmdWrite_of_error he s

end Sys2Proof.Machine
end

section
/-!
PROOFS. NOP and REG_WRITE (40_command_interface.md R85, R88): the dispatch of a command word agrees with the dispatch of
operations on everything that a word decodes to, and a write to any other register is ignored.
-/

namespace Sys2Proof.Machine

/-- Settles O1: the all-zero word is OP 0 with no argument, and NOP's rule is `skip`. -/
theorem nopChangesNothing : Obligations.NopChangesNothing :=
  ⟨rfl, fun _ => rfl⟩

/-- The two dispatches differ only on the bus operations and on the operations of the environment and the interrupts. -/
theorem execCommand_eq_exec {i : Instr} (hhost : i.agent = .host) (hread : ∀ idx, i ≠ .regRead idx)
    (hwrite : ∀ idx v, i ≠ .regWrite idx v) (s : State) : execCommand i s = exec i s := by
  cases i
  case regRead idx => exact absurd rfl (hread idx)
  case regWrite idx v => exact absurd rfl (hwrite idx v)
  case zcToggle | tickP | tickM | tickF | svcZc | svcPovf | svcMcmp | reset => cases hhost
  all_goals rfl

theorem exec_regWrite_cmd_of_ok {w : Word} {c : Instr} (h : decodeCommand w = .ok c) (s : State) :
    exec (.regWrite 0 w) s = exec c s := by
  obtain ⟨hhost, hread, hwrite⟩ := decodeFields_ok_host h
  rw [exec_regWrite_cmd, cmdWrite_of_ok h, execCommand_eq_exec hhost hread hwrite]

theorem exec_regWrite_of_ne_cmd {idx : RegIdx} (h : idx ≠ 0) (w : Word) (s : State) :
    exec (.regWrite idx w) s = .next s :=
  if_neg h

/-- Settles O7: a decoded command runs by its own rule, a word with no command is rejected by the decoder, and every
other index is ignored. -/
theorem registerWriteRunsACommandOrIsIgnored : Obligations.RegisterWriteRunsACommandOrIsIgnored := by
  refine fun s w => ⟨fun c hc => exec_regWrite_cmd_of_ok hc s, fun hnone => ?_,
    fun idx hidx => exec_regWrite_of_ne_cmd hidx w s⟩
  cases hw : decodeCommand w with
  | ok c => exact absurd hw (hnone c)
  | error e => exact cmdWrite_of_error hw s

end Sys2Proof.Machine
end

section
/-!
PROOFS. The frequency detector (41_frequency_detector.md R95 to R97, R103): each of its operations, one equation per
case, with the synchronizer's part of an edge (42_zero_cross_sync.md R107).
-/

namespace Sys2Proof.Machine

/-! ## FDET (R95) -/

theorem exec_fdet_of_blocked {s : State} (h : s.tblValid = true ∨ s.fdBusy = true ∨ s.zcEn = true) :
    exec .fdet s = .next s.refuse :=
  if_pos (by simpa [or_assoc] using h)

theorem exec_fdet_of_ready {s : State} (hvalid : s.tblValid = false) (hbusy : s.fdBusy = false)
    (hen : s.zcEn = false) : exec .fdet s = .next { s with fdBusy := true, fdPhase := .awaitFalling } :=
  if_neg (by simp [hvalid, hbusy, hen])

/-- Settles O17: the word 0x1000 is OP 1 with no argument, and the two clauses are the two branches of R95. -/
theorem fdetStartsTheMeasurementOrIsRefused : Obligations.FdetStartsTheMeasurementOrIsRefused :=
  ⟨rfl, fun _ => ⟨exec_fdet_of_blocked, exec_fdet_of_ready⟩⟩

/-! ## ZC_TOGGLE (R96, R103, R107) -/

/-- The detector effect of an edge, then the new level and the flag, which is set when ZC_EN is 1 (R107). -/
theorem exec_zcToggle (s : State) :
    exec .zcToggle s = .next { s.detectorEdge (!s.zcLvl) with
      zcLvl := !s.zcLvl, zcF := if s.zcEn = true then true else s.zcF } := by
  have hflag : (s.zcF || s.zcEn) = if s.zcEn = true then true else s.zcF := by
    cases s.zcEn
    · exact Bool.or_false _
    · exact Bool.or_true _
  rw [← hflag]
  rfl

theorem State.detectorEdge_falling {s : State} (hbusy : s.fdBusy = true) (hphase : s.fdPhase = .awaitFalling) :
    s.detectorEdge false = { s with fdCount := 0, fdPhase := .awaitRising } := by
  simp [detectorEdge, hbusy, hphase]

theorem State.detectorEdge_rising {s : State} (hbusy : s.fdBusy = true) (hphase : s.fdPhase = .awaitRising) :
    s.detectorEdge true = s.completeDetection := by
  simp [detectorEdge, hbusy, hphase]

theorem State.detectorEdge_of_not_awaited {s : State} {lvl : Bool}
    (hfall : ¬(s.fdBusy = true ∧ s.fdPhase = .awaitFalling ∧ lvl = false))
    (hrise : ¬(s.fdBusy = true ∧ s.fdPhase = .awaitRising ∧ lvl = true)) : s.detectorEdge lvl = s := by
  unfold detectorEdge
  split
  case isFalse => rfl
  case isTrue hbusy =>
    split
    · next hphase => exact absurd ⟨hbusy, hphase, rfl⟩ hfall
    · next hphase => exact absurd ⟨hbusy, hphase, rfl⟩ hrise
    · rfl
    · rfl

/-- Settles O18: an edge is `exec_zcToggle`, and the three clauses are the three cases of the detector effect at the new
level. -/
theorem edgeStepsTheDetectorAndFlagsTheSynchronizer : Obligations.EdgeStepsTheDetectorAndFlagsTheSynchronizer := by
  refine ⟨rfl, fun s => ⟨fun hbusy hphase hlvl => ?falling, fun hbusy hphase hlvl => ?rising,
    fun hfall hrise => ?ignored⟩⟩ <;> rw [exec_zcToggle]
  case falling => rw [hlvl, Bool.not_true, State.detectorEdge_falling hbusy hphase]
  case rising =>
    rw [hlvl, Bool.not_false, State.detectorEdge_rising hbusy hphase]
    rfl
  case ignored => rw [State.detectorEdge_of_not_awaited (by simpa using hfall) (by simpa using hrise)]

/-! ## TICK_F (R97) -/

/-- The tick stops at 0xFFFF, so it never wraps. -/
theorem saturatingTick_eq_min (c : BitVec 16) : saturatingTick c = BitVec.ofNat 16 (min (c.toNat + 1) 0xFFFF) := by
  unfold saturatingTick
  split
  case isTrue hmax =>
    subst hmax
    rfl
  case isFalse hne =>
    have hlt : c.toNat + 1 ≤ 0xFFFF := by bv_omega
    rw [Nat.min_eq_left hlt, BitVec.ofNat_add, BitVec.ofNat_toNat, BitVec.setWidth_eq]
    rfl

theorem exec_tickF_of_counting {s : State} (hbusy : s.fdBusy = true) (hphase : s.fdPhase = .awaitRising) :
    exec .tickF s = .next { s with fdCount := saturatingTick s.fdCount } :=
  if_pos (by simp [hbusy, hphase])

theorem exec_tickF_of_not_counting {s : State} (h : ¬(s.fdBusy = true ∧ s.fdPhase = .awaitRising)) :
    exec .tickF s = .next s :=
  if_neg (by simpa using h)

/-- Settles O19: a counted tick is `saturatingTick`, and any other tick is discarded. -/
theorem detectorTickCountsAndSaturates : Obligations.DetectorTickCountsAndSaturates := by
  refine ⟨rfl, fun s => ⟨fun hbusy hphase => ?_, exec_tickF_of_not_counting⟩⟩
  rw [exec_tickF_of_counting hbusy hphase, saturatingTick_eq_min]

end Sys2Proof.Machine
end

section
/-!
PROOFS. The zero-cross synchronizer's command (42_zero_cross_sync.md R106): ZCEN, one equation per case.
-/

namespace Sys2Proof.Machine

/-! ## ZCEN (R106) -/

theorem exec_zcen_true_of_blocked {s : State} (h : s.tblValid = false ∨ s.fdBusy = true) :
    exec (.zcen true) s = .next s.refuse :=
  if_pos (by simpa using h)

theorem exec_zcen_true_of_ready {s : State} (hvalid : s.tblValid = true) (hbusy : s.fdBusy = false) :
    exec (.zcen true) s = .next { s with zcEn := true } :=
  if_neg (by simp [hvalid, hbusy])

theorem exec_zcen_false (s : State) : exec (.zcen false) s = .next { s with zcEn := false, zcF := false } := rfl

/-- Settles O23: the operand of OP 2 is bit 0 of the word, and the three clauses are the two branches of ZCEN 1 and the
one of ZCEN 0. -/
theorem zcenEnablesDisablesOrIsRefused : Obligations.ZcenEnablesDisablesOrIsRefused :=
  ⟨rfl, rfl, fun s => ⟨exec_zcen_true_of_blocked, exec_zcen_true_of_ready, exec_zcen_false s⟩⟩

end Sys2Proof.Machine
end

section
/-!
PROOFS. The power-pulse scheduler (43_power_scheduler.md R116, R117, R121): its two commands, and its service, one
equation per case.
-/

namespace Sys2Proof.Machine

/-! ## PWREN and SETPSM (R116, R117) -/

theorem exec_pwren (e : Bool) (s : State) : exec (.pwren e) s = .next { s with pwrEn := e } := rfl

theorem exec_setpsm (p : Bool) (s : State) : exec (.setpsm p) s = .next { s with psm := p } := rfl

/-- Settles O27: the operand of OP 3 and of OP 4 is bit 0 of the word, and neither command has a condition. -/
theorem pwrenAndSetpsmWriteOnlyTheirBit : Obligations.PwrenAndSetpsmWriteOnlyTheirBit :=
  ⟨rfl, rfl, rfl, rfl, fun s b => ⟨exec_pwren b s, exec_setpsm b s⟩⟩

/-! ## SVC_POVF (R121) -/

theorem exec_svcPovf_of_enabled {s : State} (h : s.serviceEnabled .povf = true) :
    exec .svcPovf s = .next s.serviceOverflow :=
  service_of_enabled h

theorem State.serviceOverflow_of_pending_enabled {s : State} (hpending : s.pstate = .pending) (hen : s.pwrEn = true) :
    s.serviceOverflow = { s with
      povfF := false
      trace := s.trace ++ [⟨.pwr, s.hc, s.tcntP, s.tcntM⟩]
      pwrOutN := 0b11
      pstate := .idle } := by
  simp [serviceOverflow, hpending, hen, State.emit_pwr]

theorem State.serviceOverflow_of_pending_disabled {s : State} (hpending : s.pstate = .pending)
    (hen : s.pwrEn = false) : s.serviceOverflow = { s with povfF := false, pstate := .idle } := by
  simp [serviceOverflow, hpending, hen]

theorem State.serviceOverflow_of_idle {s : State} (hidle : s.pstate = .idle) :
    s.serviceOverflow = { s with povfF := false } := by
  simp [serviceOverflow, hidle]

/-- Settles O29: the enabled service completes with its effect, and the three clauses are the effect from PENDING with
the channel on, from PENDING with it off, and from IDLE. -/
theorem overflowServiceEmitsOnlyFromPending : Obligations.OverflowServiceEmitsOnlyFromPending := by
  refine ⟨rfl, fun s h => ?_⟩
  rw [exec_svcPovf_of_enabled h]
  exact ⟨fun hpending hen => congrArg _ (State.serviceOverflow_of_pending_enabled hpending hen),
    fun hpending hen => congrArg _ (State.serviceOverflow_of_pending_disabled hpending hen),
    fun hidle => congrArg _ (State.serviceOverflow_of_idle hidle)⟩

end Sys2Proof.Machine
end

section
/-!
PROOFS. The motor-pulse scheduler (44_motor_scheduler.md R127, R128, R131): its two commands, and its service, one
equation per case.
-/

namespace Sys2Proof.Machine

/-! ## ARM and DISARM (R127, R128) -/

theorem exec_arm_of_disarmed {s : State} (h : s.motArm = false) :
    exec .arm s = .next { s with motArm := true, mcmpF := false, mstate := .idle } :=
  if_neg (by simp [h])

theorem exec_arm_of_armed {s : State} (h : s.motArm = true) : exec .arm s = .next s := if_pos h

theorem exec_disarm (s : State) : exec .disarm s = .next { s with motArm := false } := rfl

/-- Settles O32: the two clauses are the two branches of ARM, so a match pending while armed is kept. -/
theorem armDiscardsTheStaleMatchOnce : Obligations.ArmDiscardsTheStaleMatchOnce :=
  ⟨rfl, fun _ => ⟨exec_arm_of_disarmed, exec_arm_of_armed⟩⟩

/-- Settles O33: DISARM has no condition, and leaves MCMP_F and MSTATE as they are. -/
theorem disarmClearsTheEnableOnly : Obligations.DisarmClearsTheEnableOnly := ⟨rfl, exec_disarm⟩

/-! ## SVC_MCMP (R131) -/

theorem exec_svcMcmp_of_enabled {s : State} (h : s.serviceEnabled .mcmp = true) :
    exec .svcMcmp s = .next s.serviceMatch :=
  service_of_enabled h

theorem State.serviceMatch_of_armed_pending {s : State} (harm : s.motArm = true) (hpending : s.mstate = .pending) :
    s.serviceMatch = { s with
      mcmpF := false
      trace := s.trace ++ [⟨.mot, s.hc, s.tcntP, s.tcntM⟩]
      motOutN := 0b11
      ocrM := s.cfg.cmpMax
      mstate := .idle } := by
  simp [serviceMatch, harm, hpending, State.emit_mot]

theorem State.serviceMatch_of_armed_idle {s : State} (harm : s.motArm = true) (hidle : s.mstate = .idle) :
    s.serviceMatch = { s with mcmpF := false, ocrM := s.cfg.cmpMax, mstate := .idle } := by
  simp [serviceMatch, harm, hidle]

theorem State.serviceMatch_of_disarmed {s : State} (harm : s.motArm = false) :
    s.serviceMatch = { s with mcmpF := false } := by
  simp [serviceMatch, harm]

/-- Settles O35: the enabled service completes with its effect, and the three clauses are the effect armed from PENDING,
armed from IDLE, and disarmed. -/
theorem matchServiceEmitsOnlyArmedAndPending : Obligations.MatchServiceEmitsOnlyArmedAndPending := by
  refine ⟨rfl, fun s h => ?_⟩
  rw [exec_svcMcmp_of_enabled h]
  exact ⟨fun harm hpending => congrArg _ (State.serviceMatch_of_armed_pending harm hpending),
    fun harm hidle => congrArg _ (State.serviceMatch_of_armed_idle harm hidle),
    fun harm => congrArg _ (State.serviceMatch_of_disarmed harm)⟩

end Sys2Proof.Machine
end

section
/-!
PROOFS. The soft-start ramp's three commands (45_soft_start.md R139 to R141): SSTART, MINC and MDEC, one equation per
case, and the bounds of the adjustments they make (R138, R146).
-/

namespace Sys2Proof.Machine

/-! ## The levels an operation names -/

theorem levelOf_of_mem {m : BitVec 3} {l : Fin 6} (hl : l.val = m.toNat) (hm : 1 ≤ m.toNat ∧ m.toNat ≤ 5) :
    levelOf m = some l :=
  (dif_pos hm).trans (congrArg some (Fin.ext hl.symm))

theorem levelUp_of_succ {m k : Fin 6} (h : k.val = m.val + 1) : levelUp m = k :=
  (dif_pos (h ▸ k.isLt)).trans (Fin.ext h.symm)

theorem levelDown_of_succ {m k : Fin 6} (h : m.val = k.val + 1) : levelDown m = k :=
  Fin.ext (Nat.sub_eq_of_eq_add h)

/-- What MINC and MDEC ask for (R140, R141). -/
theorem motorCommand_blocked_iff (s : State) :
    (!s.tblValid || decide (s.motorMode = 0)) = true ↔ s.tblValid = false ∨ s.motorMode.val = 0 := by
  simp only [Bool.or_eq_true, Bool.not_eq_true', decide_eq_true_eq, Fin.ext_iff, Fin.val_zero]

theorem motorCommand_not_blocked {s : State} (hvalid : s.tblValid = true) (hlevel : 1 ≤ s.motorMode.val) :
    ¬(!s.tblValid || decide (s.motorMode = 0)) = true := by
  rw [motorCommand_blocked_iff]
  exact not_or.2 ⟨by simp [hvalid], by omega⟩

/-! ## SSTART (R139) -/

theorem decode_sstart_word : ∀ m : BitVec 3, 1 ≤ m.toNat ∧ m.toNat ≤ 5 →
    decode (.cmd (0x5000 ||| m.setWidth 16)) = .ok (.sstart m) := by decide

theorem exec_sstart_of_invalid {s : State} (hvalid : s.tblValid = false) (m : BitVec 3) :
    exec (.sstart m) s = .next s.refuse := by
  change execSstart m s = _
  unfold execSstart
  cases levelOf m <;> simp [hvalid]

theorem exec_sstart_of_valid {s : State} {m : BitVec 3} {l : Fin 6} {a : Nat} (hvalid : s.tblValid = true)
    (hlevel : levelOf m = some l) (hfall : delayFall s.table 0 l = some a) :
    exec (.sstart m) s = .next { s with motorMode := l, shift := BitVec.ofNat 16 (evenUp a) } := by
  change execSstart m s = _
  simp [execSstart, hlevel, hvalid, hfall]

/-- The full span is positive and at most `CMP_MAX - 2`, so made even it is at most `CMP_MAX - 1` (R146). -/
theorem span_bounds {s : State} (hwf : s.cfg.wf = true) {l : Fin 6} (hl : 0 < l) {a : Nat}
    (ha : a = motorDelay s.table 0 - motorDelay s.table l) : evenUp a ≤ s.cfg.cmpMax - 1 ∧ 0 < a := by
  have htop := (PhaseTable.wf_delay (State.table_wf hwf) 0).2
  have hbottom := (PhaseTable.wf_delay (State.table_wf hwf) l).1
  have hfall := PhaseTable.wf_decreasing (State.table_wf hwf) hl
  have heven := (evenUp_le a).2
  omega

/-- Settles O39: the word carries the level in its operand field, SSTART's condition is TBL_VALID alone, and a
well-formed table answers the span. -/
theorem sstartSetsTheLevelAndTheEvenSpan : Obligations.SstartSetsTheLevelAndTheEvenSpan := by
  refine ⟨decode_sstart_word, fun s m l a hl hm => ⟨fun hvalid => exec_sstart_of_invalid hvalid m,
    fun hvalid hwf ha => ?_⟩⟩
  have hpos : 0 < l := Fin.lt_def.2 (hl ▸ hm.1)
  subst ha
  exact ⟨exec_sstart_of_valid hvalid (levelOf_of_mem hl hm) (delayFall_of_wf hwf hpos), span_bounds hwf hpos rfl⟩

/-! ## MINC (R140) -/

theorem exec_minc_of_blocked {s : State} (h : s.tblValid = false ∨ s.motorMode.val = 0) :
    exec .minc s = .next s.refuse :=
  if_pos ((motorCommand_blocked_iff s).2 h)

theorem exec_minc_of_ceiling {s : State} (hvalid : s.tblValid = true) (hlevel : s.motorMode.val = 5) :
    exec .minc s = .next s :=
  (if_neg (motorCommand_not_blocked hvalid (by omega))).trans (if_pos (Fin.ext hlevel))

theorem exec_minc_of_below_ceiling {s : State} {k : Fin 6} {a : Nat} (hvalid : s.tblValid = true)
    (hlevel : 1 ≤ s.motorMode.val) (hk : k.val = s.motorMode.val + 1)
    (hfall : delayFall s.table s.motorMode k = some a) :
    exec .minc s = .next { s.faultIf (decide (s.shift.toNat + evenUp a > 0xFFFF)) with
      motorMode := k, shift := BitVec.ofNat 16 (s.shift.toNat + evenUp a) } := by
  have hne : s.motorMode ≠ 5 := Fin.ne_of_val_ne (show s.motorMode.val ≠ 5 by omega)
  change execMinc s = _
  rw [execMinc, if_neg (motorCommand_not_blocked hvalid hlevel), if_neg hne, levelUp_of_succ hk, hfall]

theorem State.faultIf_fault_eq_ite (s : State) (p : Prop) [Decidable p] :
    (s.faultIf (decide p)).fault = if p then true else s.fault := by
  by_cases hp : p <;> simp [State.faultIf, hp]

/-- Settles O40: the three clauses are the three branches of MINC; the wrap is the 16-bit field's own. -/
theorem mincRebasesOntoTheNextLevel : Obligations.MincRebasesOntoTheNextLevel := by
  refine ⟨rfl, fun s => ⟨exec_minc_of_blocked, exec_minc_of_ceiling, fun k a r hvalid hwf hlevel hk ha hr => ?_⟩⟩
  have hlt : s.motorMode < k := Fin.lt_def.2 (by omega)
  have hfall : delayFall s.table s.motorMode k = some a := ha ▸ delayFall_of_wf hwf hlt
  change r = s.shift.toNat + evenUp a at hr
  have hwrap : BitVec.ofNat 16 (r % 2 ^ 16) = BitVec.ofNat 16 r := BitVec.eq_of_toNat_eq (by simp)
  rw [exec_minc_of_below_ceiling hvalid hlevel hk hfall, ← hr, ← State.faultIf_fault_eq_ite, hwrap]
  rfl

/-! ## MDEC (R141) -/

theorem exec_mdec_of_blocked {s : State} (h : s.tblValid = false ∨ s.motorMode.val = 0) :
    exec .mdec s = .next s.refuse :=
  if_pos ((motorCommand_blocked_iff s).2 h)

theorem exec_mdec_of_floor {s : State} (hvalid : s.tblValid = true) (hlevel : s.motorMode.val = 1) :
    exec .mdec s = .next s :=
  (if_neg (motorCommand_not_blocked hvalid (by omega))).trans (if_pos (Fin.ext hlevel))

theorem exec_mdec_of_above_floor {s : State} {k : Fin 6} {a : Nat} (hvalid : s.tblValid = true)
    (hk : s.motorMode.val = k.val + 1) (hlevel : 1 ≤ k.val) (hfall : delayFall s.table k s.motorMode = some a) :
    exec .mdec s = .next { s with
      motorMode := k
      shift := if s.shift.toNat > a then s.shift - BitVec.ofNat 16 (evenUp a) else s.shift } := by
  have hne : s.motorMode ≠ 1 := Fin.ne_of_val_ne (show s.motorMode.val ≠ 1 by omega)
  change execMdec s = _
  rw [execMdec, if_neg (motorCommand_not_blocked hvalid (by omega)), if_neg hne, levelDown_of_succ hk, hfall]

/-- A shift above the raw delta is at least the even one, so the correction does not wrap (R141). -/
theorem evenUp_le_of_lt {a x : Nat} (h : a < x) : evenUp a ≤ x := (evenUp_le a).2.trans h

theorem shift_sub_ofNat {x : BitVec 16} {n : Nat} (h : n ≤ x.toNat) :
    x - BitVec.ofNat 16 n = BitVec.ofNat 16 (x.toNat - n) := by
  rw [← BitVec.ofNat_sub_ofNat_of_le _ _ (h.trans_lt x.isLt) h, BitVec.ofNat_toNat, BitVec.setWidth_eq]

/-- Settles O41: the three clauses are the three branches of MDEC, the last split at the raw delta. -/
theorem mdecRebasesOnlyWhileMidRamp : Obligations.MdecRebasesOnlyWhileMidRamp := by
  refine ⟨rfl, fun s => ⟨exec_mdec_of_blocked, exec_mdec_of_floor, fun k a hvalid hwf hk hlevel ha => ?_⟩⟩
  have hlt : k < s.motorMode := Fin.lt_def.2 (by omega)
  have hfall : delayFall s.table k s.motorMode = some a := ha ▸ delayFall_of_wf hwf hlt
  rw [exec_mdec_of_above_floor hvalid hk hlevel hfall]
  refine ⟨fun habove => ⟨?corrected, evenUp_le_of_lt habove⟩, fun hbelow => ?uncorrected⟩
  case corrected =>
    rw [if_pos habove, shift_sub_ofNat (evenUp_le_of_lt habove)]
    rfl
  case uncorrected => rw [if_neg (Nat.not_lt.2 hbelow)]

end Sys2Proof.Machine
end

section
/-!
PROOFS. The enabling of the three services (60_exceptions.md R157): a service's step is there exactly when it is enabled,
and under the default order it is enabled exactly when its flag is 1.
-/

namespace Sys2Proof.Machine

/-- A service answers a next state exactly when it is enabled, under either service order. -/
theorem service_completes_iff {v : Service} {f : State → State} {s : State} :
    (∃ t, service v f s = .next t) ↔ s.serviceEnabled v = true :=
  ⟨fun ⟨_, h⟩ => (service_next h).1, fun h => ⟨f s, service_of_enabled h⟩⟩

theorem State.serviceEnabled_of_unconstrained {s : State} (h : s.cfg.serviceOrder = .unconstrained) (v : Service) :
    s.serviceEnabled v = s.pendingFlag v := by
  unfold State.serviceEnabled
  rw [h]

theorem service_completes_iff_pending {s : State} (h : s.cfg.serviceOrder = .unconstrained) (v : Service)
    (f : State → State) : (∃ t, service v f s = .next t) ↔ s.pendingFlag v = true := by
  rw [service_completes_iff, State.serviceEnabled_of_unconstrained h]

/-- Settles O25: each of the three operations is a service, so it completes exactly when its pending flag is 1. -/
theorem servicesRunExactlyWhenEnabled : Obligations.ServicesRunExactlyWhenEnabled :=
  fun _ h => ⟨service_completes_iff_pending h .zc fun s => s.reloadTimers.loadCompare.decayShift.forcePulse,
    service_completes_iff_pending h .povf State.serviceOverflow,
    service_completes_iff_pending h .mcmp State.serviceMatch⟩

end Sys2Proof.Machine
end

section
/-!
PROOFS. The event RESET (70_reset_and_hazards.md R175): its one equation, and the reset value of every field.
-/

namespace Sys2Proof.Machine

theorem exec_reset (s : State) : exec .reset s = .next s.toReset := rfl

/-! ## The two fields whose reset value RESET takes from the running machine's parameters (10_state.md R33) -/

@[simp] theorem State.toReset_ocrM (s : State) : s.toReset.ocrM = 2 ^ s.cfg.W - 1 := State.resetWith_ocrM s.cfg
@[simp] theorem State.toReset_zcLvl (s : State) : s.toReset.zcLvl = s.cfg.zcLvl0 := State.resetWith_zcLvl s.cfg

/-- Settles O46: RESET has no guard, and its next state is `State.toReset`. OCR_M and ZC_LVL follow the parameters; every
other field is the constant that `State.resetWith` writes. -/
theorem resetGivesEveryFieldItsResetValue : Obligations.ResetGivesEveryFieldItsResetValue := by
  refine ⟨by decide, fun s => ⟨s.toReset, exec_reset s, ?_⟩⟩
  rw [State.toReset_ocrM, State.toReset_zcLvl]
  and_intros <;> rfl

end Sys2Proof.Machine
end

section
/-!
PROOFS. The round trips between operations and raw items (30_encoding.md R65 to R74), and the words and event codes that
spell an operation.
-/

namespace Sys2Proof

/-! ## Decode of encode -/

theorem bitOperand_bitArg (b : Bool) (mk : Bool → Instr) : bitOperand (bitArg b) mk = .ok (mk b) := by
  cases b <;> rfl

theorem levelOperand_setWidth : ∀ m : BitVec 3, 1 ≤ m.toNat ∧ m.toNat ≤ 5 →
    levelOperand (m.setWidth 12) = .ok (.sstart m) := by decide

theorem decode_cmdWord (op : BitVec 4) (arg : CmdArg) : decode (.cmd (cmdWord op arg)) = decodeFields op arg :=
  decodeCommand_cmdWord op arg

/-- Settles O12: the encoder writes OP and ARG, the decoder reads them back as two fields, and each operand form accepts
the argument that the encoder made for it. -/
theorem decodeOfEncodeIsTheOperation : Obligations.DecodeOfEncodeIsTheOperation := by
  intro i hwf
  cases i
  case regRead | regWrite => rfl
  case zcToggle | tickP | tickM | tickF | svcZc | svcPovf | svcMcmp | reset => rfl
  all_goals rw [encode, decode_cmdWord]
  case zcen e => exact bitOperand_bitArg e .zcen
  case pwren e => exact bitOperand_bitArg e .pwren
  case setpsm p => exact bitOperand_bitArg p .setpsm
  case sstart m => exact levelOperand_setWidth m (of_decide_eq_true hwf)
  all_goals rfl

/-! ## Encode of decode -/

theorem wf_of_noOperand {arg : CmdArg} {i c : Instr} (hi : i.wf = true) (h : noOperand arg i = .ok c) : c.wf = true := by
  obtain ⟨-, rfl⟩ := noOperand_eq_ok.1 h
  exact hi

theorem wf_of_bitOperand {arg : CmdArg} {mk : Bool → Instr} {c : Instr} (hmk : ∀ b, (mk b).wf = true)
    (h : bitOperand arg mk = .ok c) : c.wf = true := by
  obtain ⟨-, rfl⟩ := bitOperand_eq_ok.1 h
  exact hmk _

theorem wf_of_levelOperand {arg : CmdArg} {c : Instr} (h : levelOperand arg = .ok c) : c.wf = true := by
  obtain ⟨-, hlevel, rfl⟩ := levelOperand_eq_ok.1 h
  exact decide_eq_true hlevel

/-- The decoder admits SSTART only with a level of 1..5 (R70 (b)), and no other operand is restricted. -/
theorem wf_of_decodeFields {op : BitVec 4} {arg : CmdArg} {c : Instr} (h : decodeFields op arg = .ok c) :
    c.wf = true := by
  unfold decodeFields at h
  split at h
  case h_1 | h_2 | h_7 | h_8 | h_9 | h_10 => exact wf_of_noOperand rfl h
  case h_3 | h_4 | h_5 => exact wf_of_bitOperand (fun _ => rfl) h
  case h_6 => exact wf_of_levelOperand h
  all_goals
    cases h
    rfl

/-- The eight used codes are those that the encoder writes; the unused ones decode to nothing. -/
theorem encode_of_decodeEvent {code : EventCode} {i : Instr} (h : decodeEvent code = .ok i) :
    encode i = .event code ∧ i.wf = true := by
  obtain ⟨⟨k, hk⟩⟩ := code
  interval_cases k
  all_goals cases h
  all_goals exact ⟨rfl, rfl⟩

/-- Settles O13: by the format of the item; a bus operation is its own encoding. -/
theorem encodeOfDecodeIsTheItem : Obligations.EncodeOfDecodeIsTheItem := by
  intro x i h
  cases x with
  | cmd w => exact ⟨encode_of_decodeCommand h, wf_of_decodeFields h⟩
  | read idx =>
    cases h
    exact ⟨rfl, rfl⟩
  | write idx val =>
    cases h
    exact ⟨rfl, rfl⟩
  | event code => exact encode_of_decodeEvent h

/-! ## The seventeen command words -/

/-- The words that 95_test_vectors.md V-E18 lists. -/
def commandWords : List Nat :=
  [0x0000, 0x1000, 0x2000, 0x2001, 0x3000, 0x3001, 0x4000, 0x4001, 0x5001, 0x5002, 0x5003, 0x5004, 0x5005,
    0x6000, 0x7000, 0x8000, 0x9000]

theorem sstart_word_mem : ∀ m : BitVec 3, 1 ≤ m.toNat ∧ m.toNat ≤ 5 →
    (cmdWord 0x5 (m.setWidth 12)).toNat ∈ commandWords := by decide

/-- A well-formed command is encoded as one of the listed words. -/
theorem mem_commandWords_of_encode {c : Instr} {w : Word} (hc : c.isCommand = true) (hwf : c.wf = true)
    (h : encode c = .cmd w) : w.toNat ∈ commandWords := by
  cases c
  case nop | fdet | arm | disarm | minc | mdec =>
    cases h
    decide
  case zcen b | pwren b | setpsm b =>
    cases h
    cases b <;> decide
  case sstart m =>
    cases h
    exact sstart_word_mem m (of_decide_eq_true hwf)
  all_goals cases hc

/-- Whether a word decodes to a command. -/
def spellsCommand (w : Word) : Bool :=
  match decodeCommand w with
  | .ok c => c.isCommand
  | .error _ => false

theorem spellsCommand_iff (w : Word) : spellsCommand w = true ↔ ∃ c, decodeCommand w = .ok c ∧ c.isCommand = true := by
  unfold spellsCommand
  split
  · next c hc => simp [hc]
  · next e he => simp [he]

theorem spellsCommand_of_mem : ∀ n ∈ commandWords, spellsCommand (BitVec.ofNat 16 n) = true := by decide

/-- Settles O11: what decodes is encoded back to its word, and the encodings of the commands are the listed words; each
listed word decodes to a command. -/
theorem exactlySeventeenWordsSpellACommand : Obligations.ExactlySeventeenWordsSpellACommand := by
  refine fun w => ⟨fun ⟨c, hc, hcommand⟩ => ?_, fun hw => ?_⟩
  · exact mem_commandWords_of_encode hcommand (wf_of_decodeFields hc) (encode_of_decodeCommand hc)
  · rw [← spellsCommand_iff]
    simpa using spellsCommand_of_mem w.toNat hw

/-- Settles O15: the fields of each word, read by the operand form of its OP. -/
theorem someWordsDecodeAsTheSpecSays : Obligations.SomeWordsDecodeAsTheSpecSays :=
  ⟨rfl, rfl, rfl, rfl, rfl, rfl, rfl, rfl, rfl⟩

/-! ## The event codes (R73) -/

theorem decodeEvent_unused {code : EventCode}
    (h : (4 ≤ code.toNat ∧ code.toNat ≤ 7) ∨ (11 ≤ code.toNat ∧ code.toNat ≤ 14)) :
    decodeEvent code = .error .unusedEventCode := by
  revert code
  decide

end Sys2Proof

namespace Sys2Proof.Machine

/-! ## One step takes the next item (00_scope.md R12) -/

theorem step_of_nil {s : State} (h : s.inputs = []) : step s = .next s := by
  rw [step, h]
  rfl

theorem step_of_ok {s : State} {x : Stim} {rest : List Stim} {i : Instr} (h : s.inputs = x :: rest)
    (hx : decode x = .ok i) : step s = exec i (s.takeInput rest) := by
  simp only [step, h, hx]

theorem step_of_error {s : State} {x : Stim} {rest : List Stim} {e : DecodeReject} (h : s.inputs = x :: rest)
    (hx : decode x = .error e) : step s = rejectStim e (s.takeInput rest) := by
  simp only [step, h, hx]

/-- Settles O14: the codes by the table, and a step at an unused one by the name that its decoding gives. -/
theorem eventCodesAreThoseOfTheTable : Obligations.EventCodesAreThoseOfTheTable := by
  refine ⟨rfl, rfl, rfl, rfl, rfl, rfl, rfl, rfl, rfl, rfl, rfl, rfl, rfl, rfl, rfl, rfl, fun code h => ?_⟩
  exact ⟨decodeEvent_unused h, fun s rest hs => step_of_error hs (decodeEvent_unused h)⟩

/-- Settles O16: the three clauses are the three branches of `step`; a command word is never rejected as an event. -/
theorem stepRunsTheDecodedOperation : Obligations.StepRunsTheDecodedOperation := by
  refine fun s => ⟨fun x rest i hs hx => step_of_ok hs hx, fun w rest hs hnone => ?_, step_of_nil⟩
  cases hw : decodeCommand w with
  | ok c => exact absurd hw (hnone c)
  | error e =>
    rw [step_of_error hs hw]
    obtain rfl | rfl := decodeFields_error hw <;> rfl

/-- Settles O2: a read has no condition, and the indices outside the map fall to the view's last case. -/
theorem readReturnsTheViewAndChangesNoField : Obligations.ReadReturnsTheViewAndChangesNoField := by
  refine fun s idx => ⟨rfl, fun hidx => ?_⟩
  obtain rfl | hhigh := hidx
  · exact view_cmd s
  · unfold view
    split
    case h_8 => rfl
    all_goals omega

end Sys2Proof.Machine
end

section
/-!
PROOFS. What an operation can do, said once: the command that a write to CMD performs, every change that an operation
can make to the state (`Effect`), and every reason for which one is not taken. The proofs over all operations take
these apart and unfold no operation.
-/

namespace Sys2Proof.Machine

/-! ## The command that a write to CMD performs (40_command_interface.md R86) -/

theorem performs_regWrite_of_ok {w : Word} {c : Instr} (h : decodeCommand w = .ok c) :
    performs (.regWrite 0 w) = c := by
  simp [performs, h]

theorem performs_regWrite_of_error {w : Word} {e : DecodeReject} (h : decodeCommand w = .error e) :
    performs (.regWrite 0 w) = .regWrite 0 w := by
  simp [performs, h]

theorem performs_regWrite_of_ne_cmd {idx : RegIdx} (h : idx ≠ 0) (w : Word) :
    performs (.regWrite idx w) = .regWrite idx w :=
  if_neg h

theorem performs_of_ne_regWrite {i : Instr} (h : ∀ idx w, i ≠ .regWrite idx w) : performs i = i := by
  cases i
  case regWrite idx w => exact absurd rfl (h idx w)
  all_goals rfl

/-- An operation performs itself, or it is a write to CMD of the word of the command that it performs. -/
theorem performs_cases (i : Instr) :
    performs i = i ∨ ∃ w, i = .regWrite 0 w ∧ decodeCommand w = .ok (performs i) := by
  by_cases h : ∃ idx w, i = .regWrite idx w
  · obtain ⟨idx, w, rfl⟩ := h
    by_cases hidx : idx = 0
    · subst hidx
      cases hw : decodeCommand w with
      | ok c => exact .inr ⟨w, rfl, by rw [performs_regWrite_of_ok hw, hw]⟩
      | error e => exact .inl (performs_regWrite_of_error hw)
    · exact .inl (performs_regWrite_of_ne_cmd hidx w)
  · exact .inl (performs_of_ne_regWrite fun idx w hi => h ⟨idx, w, hi⟩)

@[simp] theorem exec_performs (i : Instr) (s : State) : exec (performs i) s = exec i s := by
  obtain h | ⟨w, hi, hw⟩ := performs_cases i
  · rw [h]
  · rw [← exec_regWrite_cmd_of_ok hw, ← hi]

@[simp] theorem agent_performs (i : Instr) : (performs i).agent = i.agent := by
  obtain h | ⟨w, hi, hw⟩ := performs_cases i
  · rw [h]
  · rw [(decodeFields_ok_host hw).1, hi]
    rfl

@[simp] theorem performs_performs (i : Instr) : performs (performs i) = performs i := by
  obtain h | ⟨w, -, hw⟩ := performs_cases i
  · rw [h, h]
  · exact performs_of_ne_regWrite (decodeFields_ok_host hw).2.2

/-- No word spells an event or a service. -/
theorem eq_of_performs_eq {i j : Instr} (h : performs i = j) (hj : j.agent ≠ .host) : i = j := by
  obtain hi | ⟨w, -, hw⟩ := performs_cases i
  · rwa [← hi]
  · exact absurd (decodeFields_ok_host hw).1 (h ▸ hj)

@[simp] theorem outcomeCode_performs (i : Instr) (s : State) : outcomeCode (performs i) s = outcomeCode i s := by
  unfold outcomeCode
  rw [performs_performs]

/-- A write that performs itself is ignored, or is refused at decode. -/
theorem exec_regWrite_of_performs_self {idx : RegIdx} {w : Word} (h : performs (.regWrite idx w) = .regWrite idx w)
    (s : State) :
    (idx ≠ 0 ∧ exec (.regWrite idx w) s = .next s) ∨ (idx = 0 ∧ exec (.regWrite idx w) s = .next s.refuse) := by
  by_cases hidx : idx = 0
  · subst hidx
    cases hw : decodeCommand w with
    | ok c =>
      rw [performs_regWrite_of_ok hw] at h
      exact absurd h ((decodeFields_ok_host hw).2.2 0 w)
    | error e => exact .inr ⟨rfl, cmdWrite_of_error hw s⟩
  · exact .inl ⟨hidx, exec_regWrite_of_ne_cmd hidx w s⟩

/-! ## One tick of each timer, as one record update -/

theorem or_decide_eq_ite (b : Bool) (p : Prop) [Decidable p] : (b || decide p) = if p then true else b := by
  by_cases hp : p <;> simp [hp]

theorem exec_tickP (s : State) : exec .tickP s = .next { s with
    tcntP := (s.tcntP + 1) % 2 ^ s.cfg.W
    povfF := if (s.tcntP + 1) % 2 ^ s.cfg.W = 0 then true else s.povfF } := by
  rw [← or_decide_eq_ite]
  rfl

theorem exec_tickM (s : State) : exec .tickM s = .next { s with
    tcntM := (s.tcntM + 1) % 2 ^ s.cfg.W
    mcmpF := if (s.tcntM + 1) % 2 ^ s.cfg.W = s.ocrM then true else s.mcmpF } := by
  rw [← or_decide_eq_ite]
  rfl

/-- Settles O28: the flag is raised by the test for 0, and stays when it was raised before. -/
theorem powerTickCountsAndFlagsTheWrap : Obligations.PowerTickCountsAndFlagsTheWrap := ⟨rfl, exec_tickP⟩

/-- Settles O34: the flag is raised by the test against OCR_M, and stays when it was raised before. -/
theorem motorTickCountsAndFlagsTheMatch : Obligations.MotorTickCountsAndFlagsTheMatch := ⟨rfl, exec_tickM⟩

/-! ## The level commands: their branches, and the tables they are refused for -/

/-- Only a table outside R8 (a) makes a delay rise with the level (log entry 9). -/
theorem not_wf_of_delayFall_none {s : State} {i j : Fin 6} (hij : i < j) (h : delayFall s.table i j = none) :
    s.cfg.wf = false := by
  by_contra hwf
  rw [delayFall_of_wf (Bool.not_eq_false _ ▸ hwf) hij] at h
  cases h

theorem levelOf_none {m : BitVec 3} (h : levelOf m = none) : (Instr.sstart m).wf = false := by
  unfold levelOf at h
  split at h
  · cases h
  · next hrange => exact decide_eq_false hrange

theorem exec_sstart_of_illegal {m : BitVec 3} (h : levelOf m = none) (s : State) :
    exec (.sstart m) s = .next s.refuse := by
  change execSstart m s = _
  rw [execSstart, h]

theorem exec_sstart_of_foreign {s : State} {m : BitVec 3} {l : Fin 6} (hvalid : s.tblValid = true)
    (hlevel : levelOf m = some l) (hfall : delayFall s.table 0 l = none) :
    exec (.sstart m) s = .refused .tableOutsideSpec := by
  change execSstart m s = _
  simp [execSstart, hlevel, hvalid, hfall]

/-- SSTART is refused as a command, or restarts the ramp, or meets a table outside R8 (a). -/
theorem exec_sstart_cases (m : BitVec 3) (s : State) :
    ((levelOf m = none ∨ s.tblValid = false) ∧ exec (.sstart m) s = .next s.refuse) ∨
    (∃ l a, levelOf m = some l ∧ s.tblValid = true ∧
      exec (.sstart m) s = .next { s with motorMode := l, shift := BitVec.ofNat 16 (evenUp a) }) ∨
    (s.cfg.wf = false ∧ exec (.sstart m) s = .refused .tableOutsideSpec) := by
  cases hlevel : levelOf m with
  | none => exact .inl ⟨.inl rfl, exec_sstart_of_illegal hlevel s⟩
  | some l =>
    obtain hvalid | hvalid := Bool.eq_false_or_eq_true s.tblValid
    · cases hfall : delayFall s.table 0 l with
      | some a => exact .inr (.inl ⟨l, a, rfl, hvalid, exec_sstart_of_valid hvalid hlevel hfall⟩)
      | none =>
        obtain ⟨hl, hpos, -⟩ := levelOf_some hlevel
        have hlt : 0 < l := Fin.lt_def.2 (hl ▸ hpos)
        exact .inr (.inr ⟨not_wf_of_delayFall_none hlt hfall, exec_sstart_of_foreign hvalid hlevel hfall⟩)
    · exact .inl ⟨.inr hvalid, exec_sstart_of_invalid hvalid m⟩

theorem levelUp_val {m : Fin 6} (h : m.val ≠ 5) : (levelUp m).val = m.val + 1 := by
  have hlt : m.val + 1 < 6 := by omega
  simp [levelUp, hlt]

theorem levelDown_val {m : Fin 6} (h : m.val ≠ 0) : m.val = (levelDown m).val + 1 := by
  change m.val = m.val - 1 + 1
  omega

theorem exec_minc_of_foreign {s : State} (hvalid : s.tblValid = true) (hlevel : 1 ≤ s.motorMode.val)
    (hne : s.motorMode ≠ 5) (hfall : delayFall s.table s.motorMode (levelUp s.motorMode) = none) :
    exec .minc s = .refused .tableOutsideSpec := by
  change execMinc s = _
  rw [execMinc, if_neg (motorCommand_not_blocked hvalid hlevel), if_neg hne, hfall]

theorem exec_mdec_of_foreign {s : State} (hvalid : s.tblValid = true) (hlevel : 1 ≤ s.motorMode.val)
    (hne : s.motorMode ≠ 1) (hfall : delayFall s.table (levelDown s.motorMode) s.motorMode = none) :
    exec .mdec s = .refused .tableOutsideSpec := by
  change execMdec s = _
  rw [execMdec, if_neg (motorCommand_not_blocked hvalid hlevel), if_neg hne, hfall]

/-- The raw delta of a MINC (45_soft_start.md R140). -/
def State.mincDelta (s : State) : Nat := motorDelay s.table s.motorMode - motorDelay s.table (levelUp s.motorMode)

/-- The raw delta of an MDEC (45_soft_start.md R141). -/
def State.mdecDelta (s : State) : Nat := motorDelay s.table (levelDown s.motorMode) - motorDelay s.table s.motorMode

/-- The state after a MINC below the ceiling (R140). -/
def State.afterMinc (s : State) : State :=
  { s.faultIf (decide (s.shift.toNat + evenUp s.mincDelta > 0xFFFF)) with
    motorMode := levelUp s.motorMode, shift := BitVec.ofNat 16 (s.shift.toNat + evenUp s.mincDelta) }

/-- The state after an MDEC above the floor (R141). -/
def State.afterMdec (s : State) : State :=
  { s with
    motorMode := levelDown s.motorMode
    shift := if s.shift.toNat > s.mdecDelta then s.shift - BitVec.ofNat 16 (evenUp s.mdecDelta) else s.shift }

/-- MINC is refused as a command, or finds the ceiling, or goes up one level, or meets a table outside R8 (a). -/
theorem exec_minc_cases (s : State) :
    ((s.tblValid = false ∨ s.motorMode.val = 0) ∧ exec .minc s = .next s.refuse) ∨
    (s.tblValid = true ∧ s.motorMode.val = 5 ∧ exec .minc s = .next s) ∨
    (s.tblValid = true ∧ 1 ≤ s.motorMode.val ∧ s.motorMode ≠ 5 ∧ exec .minc s = .next s.afterMinc) ∨
    (s.cfg.wf = false ∧ exec .minc s = .refused .tableOutsideSpec) := by
  by_cases hblocked : s.tblValid = false ∨ s.motorMode.val = 0
  · exact .inl ⟨hblocked, exec_minc_of_blocked hblocked⟩
  · obtain ⟨hvalid, hzero⟩ := not_or.1 hblocked
    rw [Bool.not_eq_false] at hvalid
    have hlevel : 1 ≤ s.motorMode.val := Nat.one_le_iff_ne_zero.2 hzero
    by_cases hfive : s.motorMode.val = 5
    · exact .inr (.inl ⟨hvalid, hfive, exec_minc_of_ceiling hvalid hfive⟩)
    · have hne : s.motorMode ≠ 5 := fun h => hfive (congrArg Fin.val h)
      have hk := levelUp_val hfive
      cases hfall : delayFall s.table s.motorMode (levelUp s.motorMode) with
      | some a =>
        refine .inr (.inr (.inl ⟨hvalid, hlevel, hne, ?_⟩))
        rw [exec_minc_of_below_ceiling hvalid hlevel hk hfall, (delayFall_some hfall).2]
        rfl
      | none =>
        exact .inr (.inr (.inr ⟨not_wf_of_delayFall_none (Fin.lt_def.2 (by omega)) hfall,
          exec_minc_of_foreign hvalid hlevel hne hfall⟩))

/-- MDEC is refused as a command, or finds the floor, or goes down one level, or meets a table outside R8 (a). -/
theorem exec_mdec_cases (s : State) :
    ((s.tblValid = false ∨ s.motorMode.val = 0) ∧ exec .mdec s = .next s.refuse) ∨
    (s.tblValid = true ∧ s.motorMode.val = 1 ∧ exec .mdec s = .next s) ∨
    (s.tblValid = true ∧ 2 ≤ s.motorMode.val ∧ exec .mdec s = .next s.afterMdec) ∨
    (s.cfg.wf = false ∧ exec .mdec s = .refused .tableOutsideSpec) := by
  by_cases hblocked : s.tblValid = false ∨ s.motorMode.val = 0
  · exact .inl ⟨hblocked, exec_mdec_of_blocked hblocked⟩
  · obtain ⟨hvalid, hzero⟩ := not_or.1 hblocked
    rw [Bool.not_eq_false] at hvalid
    have hk := levelDown_val hzero
    by_cases hone : s.motorMode.val = 1
    · exact .inr (.inl ⟨hvalid, hone, exec_mdec_of_floor hvalid hone⟩)
    · cases hfall : delayFall s.table (levelDown s.motorMode) s.motorMode with
      | some a =>
        refine .inr (.inr (.inl ⟨hvalid, by omega, ?_⟩))
        rw [exec_mdec_of_above_floor hvalid hk (by omega) hfall, (delayFall_some hfall).2]
        rfl
      | none =>
        have hne : s.motorMode ≠ 1 := fun h => hone (congrArg Fin.val h)
        exact .inr (.inr (.inr ⟨not_wf_of_delayFall_none (Fin.lt_def.2 (by omega)) hfall,
          exec_mdec_of_foreign hvalid (by omega) hne hfall⟩))

/-! ## The refusal conditions of the commands (40_command_interface.md R90), and the outcome codes that follow them -/

theorem refusalCondition_fdet (s : State) :
    refusalCondition .fdet s = true ↔ s.tblValid = true ∨ s.fdBusy = true ∨ s.zcEn = true := by
  simp only [refusalCondition, Bool.or_eq_true, or_assoc]

theorem refusalCondition_zcen_true (s : State) :
    refusalCondition (.zcen true) s = true ↔ s.tblValid = false ∨ s.fdBusy = true := by
  simp only [refusalCondition, Bool.true_and, Bool.or_eq_true, Bool.not_eq_true']

theorem refusalCondition_minc (s : State) :
    refusalCondition .minc s = true ↔ s.tblValid = false ∨ s.motorMode.val = 0 :=
  motorCommand_blocked_iff s

theorem refusalCondition_mdec (s : State) :
    refusalCondition .mdec s = true ↔ s.tblValid = false ∨ s.motorMode.val = 0 :=
  motorCommand_blocked_iff s

theorem outcomeCode_fdet (s : State) :
    outcomeCode .fdet s = if refusalCondition .fdet s then some .refusedState else none := rfl

theorem outcomeCode_zcen (e : Bool) (s : State) :
    outcomeCode (.zcen e) s = if refusalCondition (.zcen e) s then some .refusedState else none := rfl

theorem outcomeCode_minc (s : State) : outcomeCode .minc s =
    if refusalCondition .minc s then some .refusedState
    else if s.motorMode ≠ 5 ∧ s.shift.toNat + evenUp s.mincDelta > 0xFFFF then some .faultShiftRange
    else none := rfl

theorem outcomeCode_mdec (s : State) :
    outcomeCode .mdec s = if refusalCondition .mdec s then some .refusedState else none := rfl

theorem outcomeCode_regWrite {idx : RegIdx} {w : Word} (hself : performs (.regWrite idx w) = .regWrite idx w)
    (s : State) : outcomeCode (.regWrite idx w) s = if idx = 0 then some .refusedDecode else none := by
  unfold outcomeCode
  rw [hself]

/-! ## Every change that an operation can make -/

/-- What an operation that performs itself leaves of a state: one constructor per change of the state, with the
condition under which it comes. The edge and the services carry their equation, which `zcToggle_next`, `svcZc_next`,
`svcPovf_next` and `svcMcmp_next` read. -/
inductive Effect : Instr → State → State → Prop
  | refuse {i : Instr} {s : State} (hhost : i.agent = .host)
      (hcode : outcomeCode i s = some .refusedDecode ∨ outcomeCode i s = some .refusedState) : Effect i s s.refuse
  | skip {i : Instr} {s : State} (hcode : outcomeCode i s = none) : Effect i s s
  | fdet {s : State} (hvalid : s.tblValid = false) (hbusy : s.fdBusy = false) (hen : s.zcEn = false) :
      Effect .fdet s { s with fdBusy := true, fdPhase := .awaitFalling }
  | zcenOn {s : State} (hvalid : s.tblValid = true) (hbusy : s.fdBusy = false) :
      Effect (.zcen true) s { s with zcEn := true }
  | zcenOff {s : State} : Effect (.zcen false) s { s with zcEn := false, zcF := false }
  | pwren {s : State} (e : Bool) : Effect (.pwren e) s { s with pwrEn := e }
  | setpsm {s : State} (p : Bool) : Effect (.setpsm p) s { s with psm := p }
  | sstart {s : State} {m : BitVec 3} {l : Fin 6} (a : Nat) (hlevel : levelOf m = some l) (hvalid : s.tblValid = true) :
      Effect (.sstart m) s { s with motorMode := l, shift := BitVec.ofNat 16 (evenUp a) }
  | arm {s : State} (hoff : s.motArm = false) :
      Effect .arm s { s with motArm := true, mcmpF := false, mstate := .idle }
  | disarm {s : State} : Effect .disarm s { s with motArm := false }
  | minc {s : State} (hvalid : s.tblValid = true) (hlevel : 1 ≤ s.motorMode.val) (hne : s.motorMode ≠ 5) :
      Effect .minc s s.afterMinc
  | mdec {s : State} (hvalid : s.tblValid = true) (hlevel : 2 ≤ s.motorMode.val) : Effect .mdec s s.afterMdec
  | regRead {s : State} (idx : RegIdx) : Effect (.regRead idx) s (s.returnRead (view s idx))
  | zcToggle {s t : State} (h : exec .zcToggle s = .next t) : Effect .zcToggle s t
  | tickP {s : State} : Effect .tickP s { s with
      tcntP := (s.tcntP + 1) % 2 ^ s.cfg.W
      povfF := if (s.tcntP + 1) % 2 ^ s.cfg.W = 0 then true else s.povfF }
  | tickM {s : State} : Effect .tickM s { s with
      tcntM := (s.tcntM + 1) % 2 ^ s.cfg.W
      mcmpF := if (s.tcntM + 1) % 2 ^ s.cfg.W = s.ocrM then true else s.mcmpF }
  | tickF {s : State} (hbusy : s.fdBusy = true) (hphase : s.fdPhase = .awaitRising) :
      Effect .tickF s { s with fdCount := saturatingTick s.fdCount }
  | svcZc {s t : State} (h : exec .svcZc s = .next t) : Effect .svcZc s t
  | svcPovf {s t : State} (h : exec .svcPovf s = .next t) : Effect .svcPovf s t
  | svcMcmp {s t : State} (h : exec .svcMcmp s = .next t) : Effect .svcMcmp s t
  | reset {s : State} : Effect .reset s s.toReset

/-- The one equation of an operation, where its next state is known. -/
theorem Effect.of_exec_eq {i : Instr} {s t u : State} (hi : Effect i s u) (heq : exec i s = .next u)
    (h : exec i s = .next t) : Effect i s t := by
  rw [heq] at h
  injection h with h
  exact h ▸ hi

theorem effect_of_fdet {s t : State} (h : exec .fdet s = .next t) : Effect .fdet s t := by
  by_cases hblocked : s.tblValid = true ∨ s.fdBusy = true ∨ s.zcEn = true
  · have hcode : outcomeCode .fdet s = some .refusedState := by
      rw [outcomeCode_fdet, if_pos ((refusalCondition_fdet s).2 hblocked)]
    exact .of_exec_eq (.refuse rfl (.inr hcode)) (exec_fdet_of_blocked hblocked) h
  · simp only [not_or, Bool.not_eq_true] at hblocked
    obtain ⟨hvalid, hbusy, hen⟩ := hblocked
    exact .of_exec_eq (.fdet hvalid hbusy hen) (exec_fdet_of_ready hvalid hbusy hen) h

theorem effect_of_zcen {e : Bool} {s t : State} (h : exec (.zcen e) s = .next t) : Effect (.zcen e) s t := by
  cases e
  case false => exact .of_exec_eq .zcenOff (exec_zcen_false s) h
  case true =>
    by_cases hblocked : s.tblValid = false ∨ s.fdBusy = true
    · have hcode : outcomeCode (.zcen true) s = some .refusedState := by
        rw [outcomeCode_zcen, if_pos ((refusalCondition_zcen_true s).2 hblocked)]
      exact .of_exec_eq (.refuse rfl (.inr hcode)) (exec_zcen_true_of_blocked hblocked) h
    · simp only [not_or, Bool.not_eq_true, Bool.not_eq_false] at hblocked
      obtain ⟨hvalid, hbusy⟩ := hblocked
      exact .of_exec_eq (.zcenOn hvalid hbusy) (exec_zcen_true_of_ready hvalid hbusy) h

theorem effect_of_arm {s t : State} (h : exec .arm s = .next t) : Effect .arm s t := by
  cases hoff : s.motArm with
  | false => exact .of_exec_eq (.arm hoff) (exec_arm_of_disarmed hoff) h
  | true => exact .of_exec_eq (.skip rfl) (exec_arm_of_armed hoff) h

theorem outcomeCode_sstart_of_refused {m : BitVec 3} {s : State} (h : levelOf m = none ∨ s.tblValid = false) :
    outcomeCode (.sstart m) s = some .refusedDecode ∨ outcomeCode (.sstart m) s = some .refusedState := by
  cases hwf : (Instr.sstart m).wf with
  | false => simp [outcomeCode, performs, hwf]
  | true =>
    have hvalid := h.resolve_left fun hnone => by simp [levelOf_none hnone] at hwf
    simp [outcomeCode, performs, hwf, refusalCondition, hvalid]

theorem effect_of_sstart {m : BitVec 3} {s t : State} (h : exec (.sstart m) s = .next t) : Effect (.sstart m) s t := by
  obtain ⟨hrefused, heq⟩ | ⟨l, a, hlevel, hvalid, heq⟩ | ⟨-, heq⟩ := exec_sstart_cases m s
  · exact .of_exec_eq (.refuse rfl (outcomeCode_sstart_of_refused hrefused)) heq h
  · exact .of_exec_eq (.sstart a hlevel hvalid) heq h
  · rw [heq] at h
    cases h

theorem effect_of_minc {s t : State} (h : exec .minc s = .next t) : Effect .minc s t := by
  obtain ⟨hblocked, heq⟩ | ⟨hvalid, hfive, heq⟩ | ⟨hvalid, hlevel, hne, heq⟩ | ⟨-, heq⟩ := exec_minc_cases s
  · have hcode : outcomeCode .minc s = some .refusedState := by
      rw [outcomeCode_minc, if_pos ((refusalCondition_minc s).2 hblocked)]
    exact .of_exec_eq (.refuse rfl (.inr hcode)) heq h
  · have hfree : ¬refusalCondition .minc s = true := by simp [refusalCondition_minc, hvalid, hfive]
    have hcode : outcomeCode .minc s = none := by
      rw [outcomeCode_minc, if_neg hfree, if_neg fun hc => hc.1 (Fin.ext hfive)]
    exact .of_exec_eq (.skip hcode) heq h
  · exact .of_exec_eq (.minc hvalid hlevel hne) heq h
  · rw [heq] at h
    cases h

theorem effect_of_mdec {s t : State} (h : exec .mdec s = .next t) : Effect .mdec s t := by
  obtain ⟨hblocked, heq⟩ | ⟨hvalid, hone, heq⟩ | ⟨hvalid, hlevel, heq⟩ | ⟨-, heq⟩ := exec_mdec_cases s
  · have hcode : outcomeCode .mdec s = some .refusedState := by
      rw [outcomeCode_mdec, if_pos ((refusalCondition_mdec s).2 hblocked)]
    exact .of_exec_eq (.refuse rfl (.inr hcode)) heq h
  · have hfree : ¬refusalCondition .mdec s = true := by simp [refusalCondition_mdec, hvalid, hone]
    exact .of_exec_eq (.skip (by rw [outcomeCode_mdec, if_neg hfree])) heq h
  · exact .of_exec_eq (.mdec hvalid hlevel) heq h
  · rw [heq] at h
    cases h

theorem effect_of_regWrite {idx : RegIdx} {w : Word} {s t : State}
    (hself : performs (.regWrite idx w) = .regWrite idx w) (h : exec (.regWrite idx w) s = .next t) :
    Effect (.regWrite idx w) s t := by
  obtain ⟨hidx, heq⟩ | ⟨hidx, heq⟩ := exec_regWrite_of_performs_self hself s
  · exact .of_exec_eq (.skip (by rw [outcomeCode_regWrite hself, if_neg hidx])) heq h
  · exact .of_exec_eq (.refuse rfl (.inl (by rw [outcomeCode_regWrite hself, if_pos hidx]))) heq h

theorem effect_of_tickF {s t : State} (h : exec .tickF s = .next t) : Effect .tickF s t := by
  by_cases hcounting : s.fdBusy = true ∧ s.fdPhase = .awaitRising
  · exact .of_exec_eq (.tickF hcounting.1 hcounting.2) (exec_tickF_of_counting hcounting.1 hcounting.2) h
  · exact .of_exec_eq (.skip rfl) (exec_tickF_of_not_counting hcounting) h

theorem effect_of_performs_self {i : Instr} {s t : State} (hself : performs i = i) (h : exec i s = .next t) :
    Effect i s t := by
  cases i
  case nop => exact .of_exec_eq (.skip rfl) rfl h
  case fdet => exact effect_of_fdet h
  case zcen => exact effect_of_zcen h
  case pwren e => exact .of_exec_eq (.pwren e) (exec_pwren e s) h
  case setpsm p => exact .of_exec_eq (.setpsm p) (exec_setpsm p s) h
  case sstart => exact effect_of_sstart h
  case arm => exact effect_of_arm h
  case disarm => exact .of_exec_eq .disarm (exec_disarm s) h
  case minc => exact effect_of_minc h
  case mdec => exact effect_of_mdec h
  case regRead idx => exact .of_exec_eq (.regRead idx) rfl h
  case regWrite => exact effect_of_regWrite hself h
  case zcToggle => exact .zcToggle h
  case tickP => exact .of_exec_eq .tickP (exec_tickP s) h
  case tickM => exact .of_exec_eq .tickM (exec_tickM s) h
  case tickF => exact effect_of_tickF h
  case svcZc => exact .svcZc h
  case svcPovf => exact .svcPovf h
  case svcMcmp => exact .svcMcmp h
  case reset => exact .of_exec_eq .reset (exec_reset s) h
  all_goals exact .of_exec_eq (.refuse rfl (.inl rfl)) rfl h

/-- An operation that answers a next state made one of the changes of `Effect`. -/
theorem effect_of_exec {i : Instr} {s t : State} (h : exec i s = .next t) : Effect (performs i) s t :=
  effect_of_performs_self (performs_performs i) (by rwa [exec_performs])

/-- What every operation and every refused word keep, a step keeps: the taking of the item changes the run alone. -/
theorem step_keeps (P : State → Prop) (htake : ∀ s rest, P s → P (s.takeInput rest)) (hrefuse : ∀ s, P s → P s.refuse)
    (hexec : ∀ i s t, P s → exec i s = .next t → P t) {s t : State} (hs : P s) (h : step s = .next t) : P t := by
  cases hinputs : s.inputs with
  | nil =>
    rw [step_of_nil hinputs] at h
    cases h
    exact hs
  | cons x rest =>
    have htaken := htake s rest hs
    cases hx : decode x with
    | ok i => exact hexec i _ t htaken (by rwa [← step_of_ok hinputs hx])
    | error e =>
      rw [step_of_error hinputs hx] at h
      obtain hreject | hreject := rejectStim_cases e (s.takeInput rest)
      · rw [hreject] at h
        cases h
        exact hrefuse _ htaken
      · rw [hreject] at h
        cases h

end Sys2Proof.Machine
end

section
/-!
PROOFS. The invariant of 10_state.md R34 (`State.Inv`): it holds after reset, and every change of `Effect` keeps it.
-/

namespace Sys2Proof.Machine

/-! ## SHIFT stays even (R34 (a)) -/

theorem ofNat_toNat_even {n : Nat} (h : n % 2 = 0) : (BitVec.ofNat 16 n).toNat % 2 = 0 := by
  rw [BitVec.toNat_ofNat]
  omega

theorem afterMinc_shift_even {s : State} (h : s.shift.toNat % 2 = 0) : s.afterMinc.shift.toNat % 2 = 0 :=
  ofNat_toNat_even (by rw [Nat.add_mod, h, evenUp_even])

theorem afterMdec_shift_even {s : State} (h : s.shift.toNat % 2 = 0) : s.afterMdec.shift.toNat % 2 = 0 := by
  have heven := evenUp_even s.mdecDelta
  unfold State.afterMdec
  split
  case isTrue habove =>
    rw [shift_sub_ofNat (evenUp_le_of_lt habove)]
    exact ofNat_toNat_even (by omega)
  case isFalse => exact h

/-- The decay of an even SHIFT is truncated subtraction (45_soft_start.md R137). -/
theorem decayed_toNat {x : BitVec 16} (h : x.toNat % 2 = 0) : (if x = 0 then x else x - 2).toNat = x.toNat - 2 := by
  split
  case isTrue hzero =>
    subst hzero
    rfl
  case isFalse hne => exact shift_sub_two h hne

/-! ## The invariant holds after reset -/

theorem State.resetWith_inv (c : Params) : (State.resetWith c).Inv where
  shiftEven := rfl
  enabledHasTable := Bool.noConfusion
  neverBoth h := Bool.noConfusion h.1
  flagUnderEnable := Bool.noConfusion
  measuredOnce := Bool.noConfusion
  countingIsBusy := FdPhase.noConfusion
  tcntPRange := Nat.two_pow_pos _
  tcntMRange := Nat.two_pow_pos _
  ocrMRange := c.cmpMax_lt
  pwrIdle := rfl
  motIdle := rfl

/-! ## Every operation keeps the invariant -/

/-- The run to come and the marks are no part of the invariant. -/
theorem State.Inv.takeInput {s : State} (hs : s.Inv) (rest : List Stim) : (s.takeInput rest).Inv := { hs with }

theorem State.Inv.refuse {s : State} (hs : s.Inv) : s.refuse.Inv := { hs with }

/-- An edge ends a measurement only with a table selected, and starts none. -/
theorem State.Inv.zcToggle {s t : State} (hs : s.Inv) (h : exec .zcToggle s = .next t) : t.Inv := by
  obtain ⟨heq, hdetector⟩ := zcToggle_next h
  have hen : t.zcEn = s.zcEn := by rw [heq]
  have hbusy : t.fdBusy = true → s.fdBusy = true ∧ t.tblValid = s.tblValid := by grind
  have hvalid : s.tblValid = true → t.tblValid = true := by grind
  have hcounting : t.fdPhase = .awaitRising → t.fdBusy = true := by
    have := hs.countingIsBusy
    grind
  rw [heq]
  exact { hs with
    enabledHasTable := fun h => hvalid (hs.enabledHasTable h)
    neverBoth := fun ⟨h, hb⟩ => hs.neverBoth ⟨h, (hbusy hb).1⟩
    flagUnderEnable := fun h => (Bool.or_eq_true_iff.1 h).elim hs.flagUnderEnable id
    measuredOnce := fun hb => (hbusy hb).2.trans (hs.measuredOnce (hbusy hb).1)
    countingIsBusy := hcounting }

theorem State.Inv.svcZc {s t : State} (hs : s.Inv) (h : exec .svcZc s = .next t) : t.Inv := by
  obtain ⟨-, rfl⟩ := svcZc_next h
  exact { hs with
    shiftEven := by
      have heven := hs.shiftEven
      rw [decayed_toNat heven]
      omega
    flagUnderEnable := Bool.noConfusion
    tcntPRange := wrapW_lt _ _
    tcntMRange := Nat.two_pow_pos _
    ocrMRange := wrapW_lt _ _
    pwrIdle := by simp [hs.pwrIdle] }

theorem State.Inv.svcPovf {s t : State} (hs : s.Inv) (h : exec .svcPovf s = .next t) : t.Inv := by
  obtain ⟨-, rfl⟩ := svcPovf_next h
  exact { hs with pwrIdle := by simp [hs.pwrIdle] }

theorem State.Inv.svcMcmp {s t : State} (hs : s.Inv) (h : exec .svcMcmp s = .next t) : t.Inv := by
  obtain ⟨-, rfl⟩ := svcMcmp_next h
  exact { hs with
    ocrMRange := by
      dsimp only
      split
      · exact s.cfg.cmpMax_lt
      · exact hs.ocrMRange
    motIdle := by simp [hs.motIdle] }

theorem Effect.keeps_inv {i : Instr} {s t : State} (h : Effect i s t) (hs : s.Inv) : t.Inv := by
  cases h with
  | refuse => exact hs.refuse
  | skip => exact hs
  | fdet hvalid hbusy hen =>
    exact { hs with
      neverBoth := fun ⟨h, _⟩ => by simp [hen] at h
      measuredOnce := fun _ => hvalid
      countingIsBusy := FdPhase.noConfusion }
  | zcenOn hvalid hbusy =>
    exact { hs with
      enabledHasTable := fun _ => hvalid
      neverBoth := fun ⟨_, h⟩ => by simp [hbusy] at h
      flagUnderEnable := fun _ => rfl }
  | zcenOff =>
    exact { hs with
      enabledHasTable := Bool.noConfusion
      neverBoth := fun h => Bool.noConfusion h.1
      flagUnderEnable := Bool.noConfusion }
  | pwren | setpsm | arm | disarm | regRead | tickF => exact { hs with }
  | sstart a => exact { hs with shiftEven := ofNat_toNat_even (evenUp_even a) }
  | minc => exact { hs with shiftEven := afterMinc_shift_even hs.shiftEven }
  | mdec => exact { hs with shiftEven := afterMdec_shift_even hs.shiftEven }
  | zcToggle h => exact hs.zcToggle h
  | tickP => exact { hs with tcntPRange := Nat.mod_lt _ (Nat.two_pow_pos _) }
  | tickM => exact { hs with tcntMRange := Nat.mod_lt _ (Nat.two_pow_pos _) }
  | svcZc h => exact hs.svcZc h
  | svcPovf h => exact hs.svcPovf h
  | svcMcmp h => exact hs.svcMcmp h
  | reset => exact { State.resetWith_inv s.cfg with }

theorem exec_keeps_inv {i : Instr} {s t : State} (hs : s.Inv) (h : exec i s = .next t) : t.Inv :=
  (effect_of_exec h).keeps_inv hs

/-- Settles O49: the item taken and a refused word leave the invariant's fields alone, and each change of an operation
keeps them. -/
theorem everyStepKeepsTheInvariant : Obligations.EveryStepKeepsTheInvariant := fun _ _ hs h =>
  step_keeps State.Inv (fun _ rest hs => hs.takeInput rest) (fun _ => State.Inv.refuse)
    (fun _ _ _ => exec_keeps_inv) hs h

end Sys2Proof.Machine
end

section
/-!
PROOFS. The pulses of a half-cycle (43_power_scheduler.md R122, 44_motor_scheduler.md R132): only the three services and
RESET touch the records, the half-cycle or the power scheduler, and each of them keeps the bound.
-/

namespace Sys2Proof.Machine

/-! ## The operations that touch no pulse -/

/-- No record, no new half-cycle, and neither scheduler allows a pulse that it did not allow before. -/
structure Quiet (s t : State) : Prop where
  cfg : t.cfg = s.cfg
  trace : t.trace = s.trace
  hc : t.hc = s.hc
  pstate : t.pstate = s.pstate
  owedMotor : owed t.mstate ≤ owed s.mstate

theorem Quiet.of_zcToggle {s t : State} (h : exec .zcToggle s = .next t) : Quiet s t := by
  rw [(zcToggle_next h).1]
  exact ⟨rfl, rfl, rfl, rfl, le_rfl⟩

/-- An operation is quiet, or one of the three services, or RESET. -/
theorem quiet_or_service_or_reset {i : Instr} {s t : State} (h : exec i s = .next t) :
    Quiet s t ∨ (i = .svcZc ∧ exec .svcZc s = .next t) ∨ (i = .svcPovf ∧ exec .svcPovf s = .next t) ∨
      (i = .svcMcmp ∧ exec .svcMcmp s = .next t) ∨ (i = .reset ∧ t = s.toReset) := by
  have heffect := effect_of_exec h
  generalize hj : performs i = j at heffect
  cases heffect with
  | zcToggle h => exact .inl (.of_zcToggle h)
  | arm => exact .inl ⟨rfl, rfl, rfl, rfl, Nat.zero_le _⟩
  | svcZc h => exact .inr (.inl ⟨eq_of_performs_eq hj (by decide), h⟩)
  | svcPovf h => exact .inr (.inr (.inl ⟨eq_of_performs_eq hj (by decide), h⟩))
  | svcMcmp h => exact .inr (.inr (.inr (.inl ⟨eq_of_performs_eq hj (by decide), h⟩)))
  | reset => exact .inr (.inr (.inr (.inr ⟨eq_of_performs_eq hj (by decide), rfl⟩)))
  | _ => exact .inl ⟨rfl, rfl, rfl, rfl, le_rfl⟩

/-! ## The pulses of each channel after a service -/

/-- A half-cycle that no record has reached holds no pulse. -/
theorem pulsesIn_eq_zero_of_past {ch : Channel} {h : Nat} {l : List Pulse} (hpast : ∀ r ∈ l, r.hc < h) :
    pulsesIn ch h l = 0 :=
  List.countP_eq_zero.2 fun r hr => by simp [(hpast r hr).ne]

/-- Whether the edge service forces a power pulse (43_power_scheduler.md R124). -/
def State.forces (s : State) : Prop := s.psm = true ∧ s.pwrEn = true

/-- The edge service opens a half-cycle: it records no motor pulse, and at most the forced power pulse in that one. -/
theorem svcZc_pulses {s t : State} (h : exec .svcZc s = .next t) (ch : Channel) (k : Nat) :
    (ch = .mot ∨ k ≠ s.hc + 1 ∨ ¬s.forces → pulsesIn ch k t.trace = pulsesIn ch k s.trace) ∧
    pulsesIn ch k t.trace ≤ pulsesIn ch k s.trace + 1 := by
  obtain ⟨-, rfl⟩ := svcZc_next h
  dsimp only [State.forces]
  split
  · rw [pulsesIn_append]
    grind
  · exact ⟨fun _ => rfl, Nat.le_succ _⟩

theorem svcZc_schedule {s t : State} (h : exec .svcZc s = .next t) :
    t.cfg = s.cfg ∧ t.hc = s.hc + 1 ∧ t.mstate = .pending ∧
      t.pstate = if s.psm = true ∧ s.cfg.forcePolicy = .replace then .idle else .pending := by
  obtain ⟨-, rfl⟩ := svcZc_next h
  exact ⟨rfl, rfl, rfl, rfl⟩

/-- In the half-cycle that the edge service opens, the pulse is the one still allowed, and the forced power pulse comes
beside it only under ADDITIONAL. -/
theorem svcZc_new_halfCycle {s t : State} (hpast : ∀ r ∈ s.trace, r.hc ≤ s.hc) (h : exec .svcZc s = .next t) :
    pulsesIn .mot t.hc t.trace + owed t.mstate = 1 ∧
    pulsesIn .pwr t.hc t.trace + owed t.pstate ≤ powerBound s.cfg.forcePolicy ∧
    (s.psm = false → pulsesIn .pwr t.hc t.trace + owed t.pstate ≤ 1) := by
  obtain ⟨-, hhc, hmstate, hpstate⟩ := svcZc_schedule h
  have hnone : ∀ ch, pulsesIn ch (s.hc + 1) s.trace = 0 := fun ch =>
    pulsesIn_eq_zero_of_past fun r hr => Nat.lt_succ_of_le (hpast r hr)
  have hmot := (svcZc_pulses h .mot (s.hc + 1)).1 (.inl rfl)
  obtain ⟨hunforced, hpwr⟩ := svcZc_pulses h .pwr (s.hc + 1)
  rw [hnone] at hmot hpwr hunforced
  rw [hhc, hmstate, hpstate, hmot]
  refine ⟨rfl, ?_, fun hpsm => ?_⟩
  · by_cases hpsm : s.psm = true
    · cases hpolicy : s.cfg.forcePolicy with
      | replace => simpa [hpsm, powerBound, owed] using hpwr
      | additional => simpa [hpsm, powerBound, owed] using hpwr
    · rw [hunforced (.inr (.inr fun hf => hpsm hf.1))]
      cases hpolicy : s.cfg.forcePolicy <;> simp [hpsm, powerBound, owed]
  · rw [hunforced (.inr (.inr fun hf => by simp [hf.1] at hpsm))]
    simp [hpsm, owed]

/-- The overflow service records a power pulse only while one is allowed, and allows none after. -/
theorem svcPovf_pulses {s t : State} (h : exec .svcPovf s = .next t) :
    t.cfg = s.cfg ∧ t.hc = s.hc ∧ t.mstate = s.mstate ∧ t.pstate = .idle ∧
    (∀ k, pulsesIn .mot k t.trace = pulsesIn .mot k s.trace) ∧
    (∀ k, k ≠ s.hc ∨ s.pwrEn = false → pulsesIn .pwr k t.trace = pulsesIn .pwr k s.trace) ∧
    ∀ k, pulsesIn .pwr k t.trace ≤ pulsesIn .pwr k s.trace + owed s.pstate := by
  obtain ⟨-, rfl⟩ := svcPovf_next h
  refine ⟨rfl, rfl, rfl, rfl, ?_⟩
  dsimp only
  split
  case isTrue hemit =>
    simp only [pulsesIn_append, hemit.1, hemit.2, owed]
    grind
  case isFalse => exact ⟨fun _ => rfl, fun _ _ => rfl, fun _ => Nat.le_add_right _ _⟩

/-- The match service records a motor pulse only while one is allowed, and allows none after it. -/
theorem svcMcmp_pulses {s t : State} (h : exec .svcMcmp s = .next t) :
    t.cfg = s.cfg ∧ t.hc = s.hc ∧ t.pstate = s.pstate ∧ t.mstate = (if s.motArm = true then .idle else s.mstate) ∧
    (∀ k, pulsesIn .pwr k t.trace = pulsesIn .pwr k s.trace) ∧
    (∀ k, k ≠ s.hc ∨ s.motArm = false → pulsesIn .mot k t.trace = pulsesIn .mot k s.trace) ∧
    ∀ k, pulsesIn .mot k t.trace ≤ pulsesIn .mot k s.trace + owed s.mstate := by
  obtain ⟨-, rfl⟩ := svcMcmp_next h
  refine ⟨rfl, rfl, rfl, rfl, ?_⟩
  dsimp only
  split
  case isTrue hemit =>
    simp only [pulsesIn_append, hemit.1, hemit.2, owed]
    grind
  case isFalse => exact ⟨fun _ => rfl, fun _ _ => rfl, fun _ => Nat.le_add_right _ _⟩

/-- A match service keeps the motor allowance of the running half-cycle. -/
theorem svcMcmp_allowance {s t : State} (h : exec .svcMcmp s = .next t) :
    pulsesIn .mot s.hc t.trace + owed t.mstate ≤ pulsesIn .mot s.hc s.trace + owed s.mstate := by
  obtain ⟨-, -, -, hmstate, -, hdisarmed, hle⟩ := svcMcmp_pulses h
  cases harm : s.motArm with
  | true =>
    rw [hmstate, if_pos harm]
    exact hle s.hc
  | false =>
    rw [hmstate, hdisarmed _ (.inr harm), if_neg (by simp [harm])]

theorem svcPovf_allowance {s t : State} (h : exec .svcPovf s = .next t) :
    pulsesIn .pwr s.hc t.trace + owed t.pstate ≤ pulsesIn .pwr s.hc s.trace + owed s.pstate := by
  obtain ⟨-, -, -, hpstate, -, -, hle⟩ := svcPovf_pulses h
  rw [hpstate]
  exact hle s.hc

/-! ## No record is from a later half-cycle -/

/-- Every record that an operation adds carries the half-cycle of the state it leaves. -/
theorem past_of_exec {i : Instr} {s t : State} (hpast : ∀ r ∈ s.trace, r.hc ≤ s.hc) (h : exec i s = .next t) :
    ∀ r ∈ t.trace, r.hc ≤ t.hc := by
  obtain hquiet | ⟨-, h⟩ | ⟨-, h⟩ | ⟨-, h⟩ | ⟨-, rfl⟩ := quiet_or_service_or_reset h
  · rwa [hquiet.trace, hquiet.hc]
  · obtain ⟨-, rfl⟩ := svcZc_next h
    grind
  · obtain ⟨-, rfl⟩ := svcPovf_next h
    grind
  · obtain ⟨-, rfl⟩ := svcMcmp_next h
    grind
  · exact fun r hr => absurd hr List.not_mem_nil

/-! ## The pulse invariant -/

theorem State.resetWith_pulseInv (c : Params) : (State.resetWith c).PulseInv where
  past _ hr := absurd hr List.not_mem_nil
  motorNow := Nat.zero_le _
  motorAll _ := Nat.zero_le _
  powerNow := Nat.zero_le _
  powerAll _ := Nat.zero_le _

theorem State.PulseInv.of_quiet {s t : State} (hs : s.PulseInv) (h : Quiet s t) : t.PulseInv where
  past := by rw [h.trace, h.hc]; exact hs.past
  motorNow := by rw [h.trace, h.hc]; exact (Nat.add_le_add_left h.owedMotor _).trans hs.motorNow
  motorAll := by rw [h.trace]; exact hs.motorAll
  powerNow := by rw [h.trace, h.hc, h.pstate, h.cfg]; exact hs.powerNow
  powerAll := by rw [h.trace, h.cfg]; exact hs.powerAll

theorem State.PulseInv.svcZc {s t : State} (hs : s.PulseInv) (h : exec .svcZc s = .next t) : t.PulseInv := by
  obtain ⟨hcfg, hhc, -, -⟩ := svcZc_schedule h
  obtain ⟨hmot, hpwr, -⟩ := svcZc_new_halfCycle hs.past h
  refine ⟨past_of_exec hs.past h, hmot.le, fun k => ?_, hcfg ▸ hpwr, fun k => ?_⟩
  · rw [(svcZc_pulses h .mot k).1 (.inl rfl)]
    exact hs.motorAll k
  · by_cases hk : k = s.hc + 1
    · rw [hcfg, hk, ← hhc]
      exact (Nat.le_add_right _ _).trans hpwr
    · rw [hcfg, (svcZc_pulses h .pwr k).1 (.inr (.inl hk))]
      exact hs.powerAll k

theorem State.PulseInv.svcPovf {s t : State} (hs : s.PulseInv) (h : exec .svcPovf s = .next t) : t.PulseInv := by
  obtain ⟨hcfg, hhc, hmstate, hpstate, hmot, hother, -⟩ := svcPovf_pulses h
  have hnow : pulsesIn .pwr t.hc t.trace + owed t.pstate ≤ powerBound t.cfg.forcePolicy := by
    rw [hcfg, hhc]
    exact (svcPovf_allowance h).trans hs.powerNow
  refine ⟨past_of_exec hs.past h, ?_, fun k => ?_, hnow, fun k => ?_⟩
  · rw [hhc, hmot, hmstate]
    exact hs.motorNow
  · rw [hmot]
    exact hs.motorAll k
  · by_cases hk : k = s.hc
    · rw [hk, ← hhc]
      exact (Nat.le_add_right _ _).trans hnow
    · rw [hcfg, hother k (.inl hk)]
      exact hs.powerAll k

theorem State.PulseInv.svcMcmp {s t : State} (hs : s.PulseInv) (h : exec .svcMcmp s = .next t) : t.PulseInv := by
  obtain ⟨hcfg, hhc, hpstate, -, hpwr, hother, -⟩ := svcMcmp_pulses h
  have hnow : pulsesIn .mot t.hc t.trace + owed t.mstate ≤ 1 := by
    rw [hhc]
    exact (svcMcmp_allowance h).trans hs.motorNow
  refine ⟨past_of_exec hs.past h, hnow, fun k => ?_, ?_, fun k => ?_⟩
  · by_cases hk : k = s.hc
    · rw [hk, ← hhc]
      exact (Nat.le_add_right _ _).trans hnow
    · rw [hother k (.inl hk)]
      exact hs.motorAll k
  · rw [hcfg, hhc, hpwr, hpstate]
    exact hs.powerNow
  · rw [hcfg, hpwr]
    exact hs.powerAll k

theorem exec_keeps_pulseInv {i : Instr} {s t : State} (hs : s.PulseInv) (h : exec i s = .next t) : t.PulseInv := by
  obtain hquiet | ⟨-, h⟩ | ⟨-, h⟩ | ⟨-, h⟩ | ⟨-, rfl⟩ := quiet_or_service_or_reset h
  · exact hs.of_quiet hquiet
  · exact hs.svcZc h
  · exact hs.svcPovf h
  · exact hs.svcMcmp h
  · exact { State.resetWith_pulseInv s.cfg with }

/-- Settles O50: the item taken and a refused word are quiet, and every operation keeps the pulse invariant. -/
theorem everyStepKeepsThePulseBound : Obligations.EveryStepKeepsThePulseBound := fun _ _ hs h =>
  step_keeps State.PulseInv (fun _ _ hs => hs.of_quiet ⟨rfl, rfl, rfl, rfl, le_rfl⟩)
    (fun _ hs => hs.of_quiet ⟨rfl, rfl, rfl, rfl, le_rfl⟩) (fun _ _ _ => exec_keeps_pulseInv) hs h

/-- Settles O48: the state after reset is `State.resetWith` of its parameters. -/
theorem invariantHoldsAfterReset : Obligations.InvariantHoldsAfterReset :=
  ⟨State.resetWith_inv _, State.resetWith_pulseInv _⟩

/-- Settles O51: a quiet operation allows no more, each timer service spends the pulse it records, and an edge service
allows one motor pulse and, unless it adds a forced one, one power pulse. -/
theorem pulseAllowanceNeverGrowsWithinAHalfCycle : Obligations.PulseAllowanceNeverGrowsWithinAHalfCycle := by
  refine ⟨fun s t i hzc hreset h => ?_, fun s t hpast h => ?_⟩
  · obtain hquiet | ⟨hi, -⟩ | ⟨-, h⟩ | ⟨-, h⟩ | ⟨hi, -⟩ := quiet_or_service_or_reset h
    · rw [hquiet.trace, hquiet.hc, hquiet.pstate]
      exact ⟨rfl, le_rfl, Nat.add_le_add_left hquiet.owedMotor _⟩
    · exact absurd hi hzc
    · obtain ⟨-, hhc, hmstate, -, hmot, -, -⟩ := svcPovf_pulses h
      rw [hhc, hmot, hmstate]
      exact ⟨rfl, svcPovf_allowance h, le_rfl⟩
    · obtain ⟨-, hhc, hpstate, -, hpwr, -, -⟩ := svcMcmp_pulses h
      rw [hhc, hpwr, hpstate]
      exact ⟨rfl, le_rfl, svcMcmp_allowance h⟩
    · exact absurd hi hreset
  · obtain ⟨hmot, hpwr, hstandby⟩ := svcZc_new_halfCycle hpast h
    refine ⟨hmot, fun hcase => hcase.elim hstandby fun hreplace => ?_⟩
    rwa [hreplace] at hpwr

/-! ## A disabled scheduler -/

/-- With its enable at 0 a service leaves the trace as it is. -/
theorem trace_eq_of_disabled {i : Instr} {s t : State} (hreset : i ≠ .reset) (h : exec i s = .next t)
    (hpwr : s.pwrEn = false) (hmot : s.motArm = false) : t.trace = s.trace := by
  obtain hquiet | ⟨-, h⟩ | ⟨-, h⟩ | ⟨-, h⟩ | ⟨hi, -⟩ := quiet_or_service_or_reset h
  · exact hquiet.trace
  · obtain ⟨-, rfl⟩ := svcZc_next h
    simp [hpwr]
  · obtain ⟨-, rfl⟩ := svcPovf_next h
    simp [hpwr]
  · obtain ⟨-, rfl⟩ := svcMcmp_next h
    simp [hmot]
  · exact absurd hi hreset

theorem powerPulses_eq_of_disabled {i : Instr} {s t : State} (hreset : i ≠ .reset) (h : exec i s = .next t)
    (hpwr : s.pwrEn = false) (k : Nat) : pulsesIn .pwr k t.trace = pulsesIn .pwr k s.trace := by
  obtain hquiet | ⟨-, h⟩ | ⟨-, h⟩ | ⟨-, h⟩ | ⟨hi, -⟩ := quiet_or_service_or_reset h
  · rw [hquiet.trace]
  · exact (svcZc_pulses h .pwr k).1 (.inr (.inr fun hforces => by simp [hforces.2] at hpwr))
  · obtain ⟨-, -, -, -, -, hsame, -⟩ := svcPovf_pulses h
    exact hsame k (.inr hpwr)
  · obtain ⟨-, -, -, -, hsame, -⟩ := svcMcmp_pulses h
    exact hsame k
  · exact absurd hi hreset

theorem motorPulses_eq_of_disarmed {i : Instr} {s t : State} (hreset : i ≠ .reset) (h : exec i s = .next t)
    (hmot : s.motArm = false) (k : Nat) : pulsesIn .mot k t.trace = pulsesIn .mot k s.trace := by
  obtain hquiet | ⟨-, h⟩ | ⟨-, h⟩ | ⟨-, h⟩ | ⟨hi, -⟩ := quiet_or_service_or_reset h
  · rw [hquiet.trace]
  · exact (svcZc_pulses h .mot k).1 (.inl rfl)
  · obtain ⟨-, -, -, -, hsame, -⟩ := svcPovf_pulses h
    exact hsame k
  · obtain ⟨-, -, -, -, -, hsame, -⟩ := svcMcmp_pulses h
    exact hsame k (.inr hmot)
  · exact absurd hi hreset

/-- Settles O52: only the services record pulses, each of its own channel, and under that channel's enable. -/
theorem disabledSchedulersEmitNothing : Obligations.DisabledSchedulersEmitNothing := fun _ _ _ hreset h =>
  ⟨powerPulses_eq_of_disabled hreset h, motorPulses_eq_of_disarmed hreset h, trace_eq_of_disabled hreset h⟩

end Sys2Proof.Machine
end

section
/-!
PROOFS. Which operations are taken (60_exceptions.md R150, R151, R157): every reason for which one is not, the refusal
conditions of the commands (40_command_interface.md R90), and the two marks (R153, R154).
-/

namespace Sys2Proof.Machine

/-! ## Every operation is taken, or refused under one of two names -/

/-- A level command, where SSTART, MINC and MDEC are meant (45_soft_start.md R139 to R141). -/
def Instr.isLevelCommand (i : Instr) : Prop := (∃ m, i = .sstart m) ∨ i = .minc ∨ i = .mdec

/-- What `exec` can answer for an operation: a next state, or one of the two refusals with its condition. -/
def TakenOrRefused (i : Instr) (s : State) : Prop :=
  (∃ t, exec i s = .next t) ∨
  (exec i s = .refused .serviceNotEnabled ∧ i.agent = .isr ∧ enabled i s = false) ∨
  (exec i s = .refused .tableOutsideSpec ∧ s.cfg.wf = false ∧ Instr.isLevelCommand i)

theorem exec_svcZc_eq_service (s : State) :
    exec .svcZc s = service .zc (fun s => s.reloadTimers.loadCompare.decayShift.forcePulse) s := rfl

theorem takenOrRefused_service {i : Instr} {s : State} {v : Service} {f : State → State}
    (hservice : Instr.service i = some v) (hagent : i.agent = .isr) (hexec : exec i s = service v f s) :
    TakenOrRefused i s := by
  cases hen : s.serviceEnabled v with
  | true => exact .inl ⟨f s, hexec.trans (service_of_enabled hen)⟩
  | false =>
    refine .inr (.inl ⟨hexec.trans (service_of_not_enabled hen), hagent, ?_⟩)
    rw [enabled, hservice]
    exact hen

theorem takenOrRefused_sstart (m : BitVec 3) (s : State) : TakenOrRefused (.sstart m) s := by
  obtain ⟨-, h⟩ | ⟨l, a, -, -, h⟩ | ⟨hwf, h⟩ := exec_sstart_cases m s
  · exact .inl ⟨_, h⟩
  · exact .inl ⟨_, h⟩
  · exact .inr (.inr ⟨h, hwf, .inl ⟨m, rfl⟩⟩)

theorem takenOrRefused_minc (s : State) : TakenOrRefused .minc s := by
  obtain ⟨-, h⟩ | ⟨-, -, h⟩ | ⟨-, -, -, h⟩ | ⟨hwf, h⟩ := exec_minc_cases s
  · exact .inl ⟨_, h⟩
  · exact .inl ⟨_, h⟩
  · exact .inl ⟨_, h⟩
  · exact .inr (.inr ⟨h, hwf, .inr (.inl rfl)⟩)

theorem takenOrRefused_mdec (s : State) : TakenOrRefused .mdec s := by
  obtain ⟨-, h⟩ | ⟨-, -, h⟩ | ⟨-, -, h⟩ | ⟨hwf, h⟩ := exec_mdec_cases s
  · exact .inl ⟨_, h⟩
  · exact .inl ⟨_, h⟩
  · exact .inl ⟨_, h⟩
  · exact .inr (.inr ⟨h, hwf, .inr (.inr rfl)⟩)

/-- Both answers of an operation whose condition is a plain test are next states. -/
theorem exists_next_ite (p : Prop) [Decidable p] (s t : State) :
    ∃ u, (if p then (.next s : Result) else .next t) = .next u := by
  split
  · exact ⟨s, rfl⟩
  · exact ⟨t, rfl⟩

theorem takenOrRefused_of_performs_self {i : Instr} (hself : performs i = i) (s : State) : TakenOrRefused i s := by
  cases i
  case sstart m => exact takenOrRefused_sstart m s
  case minc => exact takenOrRefused_minc s
  case mdec => exact takenOrRefused_mdec s
  case svcZc => exact takenOrRefused_service rfl rfl (exec_svcZc_eq_service s)
  case svcPovf => exact takenOrRefused_service rfl rfl rfl
  case svcMcmp => exact takenOrRefused_service rfl rfl rfl
  case regWrite =>
    obtain ⟨-, h⟩ | ⟨-, h⟩ := exec_regWrite_of_performs_self hself s
    · exact .inl ⟨_, h⟩
    · exact .inl ⟨_, h⟩
  case zcen e =>
    cases e
    · exact .inl ⟨_, exec_zcen_false s⟩
    · exact .inl (exists_next_ite _ _ _)
  case fdet | arm | tickF => exact .inl (exists_next_ite _ _ _)
  all_goals exact .inl ⟨_, rfl⟩

/-- The answers of every operation; a write to CMD of a level command is answered as that command is. -/
theorem exec_taken_or_refused (i : Instr) (s : State) :
    (∃ t, exec i s = .next t) ∨
    (exec i s = .refused .serviceNotEnabled ∧ i.agent = .isr ∧ enabled i s = false) ∨
    (exec i s = .refused .tableOutsideSpec ∧ s.cfg.wf = false ∧ Instr.isLevelCommand (performs i)) := by
  obtain h | ⟨h, hagent, hen⟩ | ⟨h, hwf, hlevel⟩ := takenOrRefused_of_performs_self (performs_performs i) s
  · rw [exec_performs] at h
    exact .inl h
  · rw [agent_performs] at hagent
    have hi : i = performs i := eq_of_performs_eq rfl (by rw [agent_performs, hagent]; decide)
    rw [exec_performs] at h
    exact .inr (.inl ⟨h, hagent, by rwa [hi]⟩)
  · rw [exec_performs] at h
    exact .inr (.inr ⟨h, hwf, hlevel⟩)

/-- Settles O53: the two reasons for a refusal are the two premises. -/
theorem everyEnabledStepCompletes : Obligations.EveryEnabledStepCompletes := by
  intro s i hwf hen
  obtain h | ⟨-, -, hdisabled⟩ | ⟨-, hforeign, -⟩ := exec_taken_or_refused i s
  · exact h
  · simp [hen] at hdisabled
  · simp [hwf] at hforeign

/-! ## Quiescence, and the order FIXED (60_exceptions.md R158, R169) -/

theorem serviceEnabled_of_quiescent {s : State} (h : s.quiescent = true) (v : Service) :
    s.serviceEnabled v = false := by
  simp only [State.quiescent, Bool.and_eq_true, Bool.not_eq_true'] at h
  obtain ⟨⟨hzc, hpovf⟩, hmcmp⟩ := h
  by_contra hen
  have hflag := State.flag_of_enabled (Bool.not_eq_false _ ▸ hen)
  cases v <;> simp_all [State.pendingFlag]

theorem exec_svcZc_completes_iff (s : State) : (∃ t, exec .svcZc s = .next t) ↔ s.zcF = true := by
  rw [← State.zc_enabled, exec_svcZc_eq_service]
  exact service_completes_iff

theorem serviceEnabled_fixed_povf {s : State} (h : s.cfg.serviceOrder = .fixed) :
    s.serviceEnabled .povf = true ↔ s.povfF = true ∧ s.zcF = false := by
  simp [State.serviceEnabled, h]

theorem serviceEnabled_fixed_mcmp {s : State} (h : s.cfg.serviceOrder = .fixed) :
    s.serviceEnabled .mcmp = true ↔ s.mcmpF = true ∧ s.zcF = false ∧ s.povfF = false := by
  simp [State.serviceEnabled, h, and_assoc]

/-- Settles O54: every answer is a next state or one of the two refusals; with no flag no service is enabled, and FIXED
adds the higher flags to the condition. -/
theorem onlyDisabledServicesAndForeignTablesAreRefused :
    Obligations.OnlyDisabledServicesAndForeignTablesAreRefused := by
  refine ⟨fun s i => ⟨fun f => (nomatch f), fun r hr => ?_⟩, fun s hquiet => ?_, fun s hfixed => ?_⟩
  · obtain ⟨t, h⟩ | ⟨h, hagent, hen⟩ | ⟨h, hwf, hlevel⟩ := exec_taken_or_refused i s
    · rw [h] at hr
      cases hr
    · rw [h] at hr
      cases hr
      exact .inl ⟨rfl, hagent, hen⟩
    · rw [h] at hr
      cases hr
      exact .inr ⟨rfl, hwf, hlevel⟩
  · exact ⟨(exec_svcZc_eq_service s).trans (service_of_not_enabled (serviceEnabled_of_quiescent hquiet .zc)),
      service_of_not_enabled (serviceEnabled_of_quiescent hquiet .povf),
      service_of_not_enabled (serviceEnabled_of_quiescent hquiet .mcmp)⟩
  · exact ⟨exec_svcZc_completes_iff s, service_completes_iff.trans (serviceEnabled_fixed_povf hfixed),
      service_completes_iff.trans (serviceEnabled_fixed_mcmp hfixed)⟩

/-! ## The marks (R153, R154) -/

theorem outcomeCode_svcZc_of_pending {s : State} (h : s.zcF = true) :
    outcomeCode .svcZc s = if s.compareSum > s.cfg.cmpMax then some .faultCmpRange else none := by
  simp [outcomeCode, performs, h]

theorem outcomeCode_sstart_of_taken {m : BitVec 3} {l : Fin 6} {s : State} (hlevel : levelOf m = some l)
    (hvalid : s.tblValid = true) : outcomeCode (.sstart m) s = none := by
  have hwf : (Instr.sstart m).wf = true := decide_eq_true (levelOf_some hlevel).2
  simp [outcomeCode, performs, hwf, refusalCondition, hvalid]

/-- What a step without an outcome code does to the marks: nothing. -/
theorem marks_of_no_code {i : Instr} {s t : State} (hcode : outcomeCode i s = none) (hrefused : t.refused = s.refused)
    (hfault : t.fault = s.fault) :
    t.refused = (s.refused || outcomeCode i s == some .refusedDecode || outcomeCode i s == some .refusedState) ∧
    t.fault = (s.fault || outcomeCode i s == some .faultCmpRange || outcomeCode i s == some .faultShiftRange) := by
  simp [hcode, hrefused, hfault]

theorem Effect.marks {i : Instr} {s t : State} (h : Effect i s t) (hreset : i ≠ .reset) :
    t.refused = (s.refused || outcomeCode i s == some .refusedDecode || outcomeCode i s == some .refusedState) ∧
    t.fault = (s.fault || outcomeCode i s == some .faultCmpRange || outcomeCode i s == some .faultShiftRange) := by
  cases h with
  | refuse _ hcode => obtain hcode | hcode := hcode <;> simp [hcode, beq_eq_decide]
  | skip hcode => exact marks_of_no_code hcode rfl rfl
  | fdet hvalid hbusy hen =>
    have hfree : ¬refusalCondition .fdet s = true := by simp [refusalCondition_fdet, hvalid, hbusy, hen]
    exact marks_of_no_code (by rw [outcomeCode_fdet, if_neg hfree]) rfl rfl
  | zcenOn hvalid hbusy =>
    have hfree : ¬refusalCondition (.zcen true) s = true := by simp [refusalCondition_zcen_true, hvalid, hbusy]
    exact marks_of_no_code (by rw [outcomeCode_zcen, if_neg hfree]) rfl rfl
  | sstart a hlevel hvalid => exact marks_of_no_code (outcomeCode_sstart_of_taken hlevel hvalid) rfl rfl
  | minc hvalid hlevel hne =>
    have hfree : ¬refusalCondition .minc s = true := by
      have hzero : s.motorMode.val ≠ 0 := by omega
      simpa [refusalCondition_minc, hvalid] using hzero
    by_cases hrange : s.shift.toNat + evenUp s.mincDelta > 0xFFFF
    · simp [outcomeCode_minc, if_neg hfree, hne, hrange, State.afterMinc, beq_eq_decide]
    · simp [outcomeCode_minc, if_neg hfree, hrange, State.afterMinc]
  | mdec hvalid hlevel =>
    have hfree : ¬refusalCondition .mdec s = true := by
      have hzero : s.motorMode.val ≠ 0 := by omega
      simpa [refusalCondition_mdec, hvalid] using hzero
    exact marks_of_no_code (by rw [outcomeCode_mdec, if_neg hfree]) rfl rfl
  | zcToggle h =>
    rw [(zcToggle_next h).1]
    exact marks_of_no_code rfl rfl rfl
  | svcZc h =>
    obtain ⟨hflag, rfl⟩ := svcZc_next h
    rw [outcomeCode_svcZc_of_pending hflag]
    by_cases hrange : s.compareSum > s.cfg.cmpMax <;> simp [hrange, beq_eq_decide]
  | svcPovf h =>
    obtain ⟨hen, rfl⟩ := svcPovf_next h
    exact marks_of_no_code (by simp [outcomeCode, performs, hen]) rfl rfl
  | svcMcmp h =>
    obtain ⟨hen, rfl⟩ := svcMcmp_next h
    exact marks_of_no_code (by simp [outcomeCode, performs, hen]) rfl rfl
  | reset => exact absurd rfl hreset
  | _ => exact marks_of_no_code rfl rfl rfl

/-- Settles O55: the code of a write to CMD is that of the command it performs, and each change of `Effect` sets the
marks by its code. -/
theorem marksAreStickyAndSetOnlyByTheirCodes : Obligations.MarksAreStickyAndSetOnlyByTheirCodes := by
  intro s t i _ hreset h
  rw [← outcomeCode_performs]
  exact (effect_of_exec h).marks fun hi => hreset (eq_of_performs_eq hi (by decide))

/-! ## The refusal conditions (40_command_interface.md R90) -/

theorem exec_of_refusalCondition {i : Instr} {s : State} (hi : i.isCommand = true)
    (h : refusalCondition i s = true) : exec i s = .next s.refuse := by
  cases i
  case fdet => exact exec_fdet_of_blocked ((refusalCondition_fdet s).1 h)
  case zcen e =>
    cases e
    · cases h
    · exact exec_zcen_true_of_blocked ((refusalCondition_zcen_true s).1 h)
  case sstart m => exact exec_sstart_of_invalid (by simpa [refusalCondition] using h) m
  case minc => exact exec_minc_of_blocked ((refusalCondition_minc s).1 h)
  case mdec => exact exec_mdec_of_blocked ((refusalCondition_mdec s).1 h)
  case nop | pwren | setpsm | arm | disarm => cases h
  all_goals cases hi

/-- A legal command whose condition does not hold has no code of a refusal. -/
theorem outcomeCode_of_not_refused {i : Instr} {s : State} (hi : i.isCommand = true) (hwf : i.wf = true)
    (h : refusalCondition i s = false) :
    outcomeCode i s = none ∨ outcomeCode i s = some .faultShiftRange := by
  cases i
  case minc =>
    rw [outcomeCode_minc, h]
    split
    · contradiction
    · split
      · exact .inr rfl
      · exact .inl rfl
  case sstart => exact .inl (by simp [outcomeCode, performs, hwf, h])
  case nop | pwren | setpsm | arm | disarm => exact .inl rfl
  case fdet => exact .inl (by rw [outcomeCode_fdet, if_neg (by simp [h])])
  case zcen => exact .inl (by rw [outcomeCode_zcen, if_neg (by simp [h])])
  case mdec => exact .inl (by rw [outcomeCode_mdec, if_neg (by simp [h])])
  all_goals cases hi

theorem enabled_of_isCommand {i : Instr} (hi : i.isCommand = true) (s : State) : enabled i s = true := by
  cases i
  case svcZc | svcPovf | svcMcmp => cases hi
  all_goals rfl

/-- Settles O8: a command is refused by its own rule where its condition holds; otherwise it is taken, and its code is
none that sets the mark. -/
theorem commandsAreRefusedExactlyOnTheirConditions : Obligations.CommandsAreRefusedExactlyOnTheirConditions := by
  intro s i hi hlegal hwf
  refine ⟨exec_of_refusalCondition hi, fun hfree => ?_⟩
  obtain ⟨t, ht⟩ := everyEnabledStepCompletes s i hwf (enabled_of_isCommand hi s)
  have hreset : i ≠ .reset := by
    rintro rfl
    cases hi
  refine ⟨t, ht, (marksAreStickyAndSetOnlyByTheirCodes s t i hwf hreset ht).1.trans ?_⟩
  obtain hcode | hcode := outcomeCode_of_not_refused hi hlegal hfree <;> simp [hcode, beq_eq_decide]

end Sys2Proof.Machine
end

section
/-!
PROOFS. Who writes which field (10_state.md, sections 2, 3 and 8; 60_exceptions.md, section 2): each statement goes
through the changes of `Effect`, and only those that write one of its fields need an argument.
-/

namespace Sys2Proof.Machine

/-! ## The HOST (40_command_interface.md, 70_reset_and_hazards.md) -/

theorem Effect.host_frame {i : Instr} {s t : State} (h : Effect i s t) (hhost : i.agent = .host) :
    t.trace = s.trace ∧ t.hc = s.hc ∧ t.pwrOutN = s.pwrOutN ∧ t.motOutN = s.motOutN ∧
    (t.zcF = true → s.zcF = true) ∧ t.povfF = s.povfF ∧ (t.mcmpF = true → s.mcmpF = true) ∧
    t.tcntP = s.tcntP ∧ t.tcntM = s.tcntM ∧ t.ocrM = s.ocrM ∧
    t.fdCount = s.fdCount ∧ t.zcLvl = s.zcLvl ∧ t.tblSel = s.tblSel ∧ t.tblValid = s.tblValid ∧
    t.pstate = s.pstate := by
  cases h with
  | zcenOff => exact ⟨rfl, rfl, rfl, rfl, Bool.noConfusion, rfl, id, rfl, rfl, rfl, rfl, rfl, rfl, rfl, rfl⟩
  | arm => exact ⟨rfl, rfl, rfl, rfl, id, rfl, Bool.noConfusion, rfl, rfl, rfl, rfl, rfl, rfl, rfl, rfl⟩
  | zcToggle | tickP | tickM | tickF | svcZc | svcPovf | svcMcmp | reset => cases hhost
  | _ => exact ⟨rfl, rfl, rfl, rfl, id, rfl, id, rfl, rfl, rfl, rfl, rfl, rfl, rfl, rfl⟩

/-- Settles O9: of the HOST's changes only ZCEN 0 and ARM write a flag, and they clear it. -/
theorem hostOperationsTouchNoTimerAndEmitNothing : Obligations.HostOperationsTouchNoTimerAndEmitNothing :=
  fun _ _ i hhost h => (effect_of_exec h).host_frame ((agent_performs i).trans hhost)

/-! ## What no service writes -/

/-- The parameters, the model's lists, the enables, the level and the detector are the same. -/
structure ServiceFrame (s t : State) : Prop where
  cfg : t.cfg = s.cfg
  inputs : t.inputs = s.inputs
  rdata : t.rdata = s.rdata
  psm : t.psm = s.psm
  motorMode : t.motorMode = s.motorMode
  motArm : t.motArm = s.motArm
  zcEn : t.zcEn = s.zcEn
  pwrEn : t.pwrEn = s.pwrEn
  tblSel : t.tblSel = s.tblSel
  tblValid : t.tblValid = s.tblValid
  fdBusy : t.fdBusy = s.fdBusy
  fdPhase : t.fdPhase = s.fdPhase
  fdCount : t.fdCount = s.fdCount

theorem serviceFrame_of_exec {i : Instr} {s t : State} (hisr : i.agent = .isr) (h : exec i s = .next t) :
    ServiceFrame s t := by
  cases i
  case svcZc =>
    rw [(svcZc_next h).2]
    constructor <;> rfl
  case svcPovf =>
    rw [(svcPovf_next h).2]
    constructor <;> rfl
  case svcMcmp =>
    rw [(svcMcmp_next h).2]
    constructor <;> rfl
  all_goals cases hisr

/-! ## The parameters and the model's two lists -/

theorem Effect.keeps_parameters {i : Instr} {s t : State} (h : Effect i s t) :
    t.cfg = s.cfg ∧ t.inputs = s.inputs ∧ ((∀ idx, i ≠ .regRead idx) → t.rdata = s.rdata) := by
  cases h with
  | regRead idx => exact ⟨rfl, rfl, fun hno => absurd rfl (hno idx)⟩
  | zcToggle h =>
    rw [(zcToggle_next h).1]
    exact ⟨rfl, rfl, fun _ => rfl⟩
  | svcZc h | svcPovf h | svcMcmp h =>
    have hframe := serviceFrame_of_exec rfl h
    exact ⟨hframe.cfg, hframe.inputs, fun _ => hframe.rdata⟩
  | _ => exact ⟨rfl, rfl, fun _ => rfl⟩

/-- No word spells a read. -/
theorem performs_ne_regRead {i : Instr} (h : ∀ idx, i ≠ .regRead idx) (idx : RegIdx) : performs i ≠ .regRead idx := by
  obtain hself | ⟨w, -, hw⟩ := performs_cases i
  · rw [hself]
    exact h idx
  · exact (decodeFields_ok_host hw).2.1 idx

/-- Settles O56: no change of `Effect` writes the parameters or the run, and only a read writes the values read. -/
theorem parametersAndScheduleAreNeverWritten : Obligations.ParametersAndScheduleAreNeverWritten := by
  intro s t i h
  obtain ⟨hcfg, hinputs, hrdata⟩ := (effect_of_exec h).keeps_parameters
  exact ⟨hcfg, hinputs, fun hno => hrdata (performs_ne_regRead hno)⟩

/-! ## ControllerState and the enables -/

/-- The named writers of each field, of an operation that performs itself. -/
def WritersOf (i : Instr) (s t : State) : Prop :=
  (t.psm ≠ s.psm → ∃ p, i = .setpsm p) ∧
  (t.motorMode ≠ s.motorMode → (∃ m, i = .sstart m) ∨ i = .minc ∨ i = .mdec) ∧
  (t.shift ≠ s.shift → (∃ m, i = .sstart m) ∨ i = .minc ∨ i = .mdec ∨ i = .svcZc) ∧
  (t.motArm ≠ s.motArm → i = .arm ∨ i = .disarm) ∧
  (t.zcEn ≠ s.zcEn → ∃ e, i = .zcen e) ∧
  (t.pwrEn ≠ s.pwrEn → ∃ e, i = .pwren e)

theorem writersOf_of_same {i : Instr} {s t : State} (hpsm : t.psm = s.psm) (hmode : t.motorMode = s.motorMode)
    (hshift : t.shift = s.shift ∨ i = .svcZc) (harm : t.motArm = s.motArm) (hzc : t.zcEn = s.zcEn)
    (hpwr : t.pwrEn = s.pwrEn) : WritersOf i s t :=
  ⟨(absurd hpsm ·), (absurd hmode ·), fun hne => .inr (.inr (.inr (hshift.resolve_left hne))), (absurd harm ·),
    (absurd hzc ·), (absurd hpwr ·)⟩

theorem writersOf_of_service {i : Instr} {s t : State} (hisr : i.agent = .isr) (h : exec i s = .next t)
    (hshift : t.shift = s.shift ∨ i = .svcZc) : WritersOf i s t :=
  have hframe := serviceFrame_of_exec hisr h
  writersOf_of_same hframe.psm hframe.motorMode hshift hframe.motArm hframe.zcEn hframe.pwrEn

theorem Effect.writersOf {i : Instr} {s t : State} (h : Effect i s t) (hreset : i ≠ .reset) : WritersOf i s t := by
  cases h with
  | zcenOn | zcenOff => simp [WritersOf]
  | pwren | setpsm => simp [WritersOf]
  | sstart | minc | mdec => simp [WritersOf, State.afterMinc, State.afterMdec]
  | arm | disarm => simp [WritersOf]
  | zcToggle h =>
    rw [(zcToggle_next h).1]
    exact writersOf_of_same rfl rfl (.inl rfl) rfl rfl rfl
  | svcZc h => exact writersOf_of_service rfl h (.inr rfl)
  | svcPovf h => exact writersOf_of_service rfl h (.inl (by rw [(svcPovf_next h).2]))
  | svcMcmp h => exact writersOf_of_service rfl h (.inl (by rw [(svcMcmp_next h).2]))
  | reset => exact absurd rfl hreset
  | _ => exact writersOf_of_same rfl rfl (.inl rfl) rfl rfl rfl

/-- Settles O57: each change of `Effect` that writes one of the fields is a named writer of it; that the service is the
operation itself holds because no word spells it. -/
theorem controllerStateHasOnlyItsWriters : Obligations.ControllerStateHasOnlyItsWriters := by
  intro s t i hreset h
  have hperforms : performs i ≠ .reset := fun hi => hreset (eq_of_performs_eq hi (by decide))
  obtain ⟨hpsm, hmode, hshift, harm, hzc, hpwr⟩ := (effect_of_exec h).writersOf hperforms
  refine ⟨hpsm, hmode, fun hne => ?_, harm, hzc, hpwr⟩
  exact (hshift hne).imp_right <| Or.imp_right <| Or.imp_right fun hi => eq_of_performs_eq hi (by decide)

/-! ## The pending flags (60_exceptions.md R155) -/

/-- The setter and the clearers of each flag, of an operation that performs itself. -/
def FlagWritersOf (i : Instr) (s t : State) : Prop :=
  (s.zcF = false → t.zcF = true → i = .zcToggle ∧ s.zcEn = true) ∧
  (s.zcF = true → t.zcF = false → i = .svcZc ∨ i = .zcen false) ∧
  (s.povfF = false → t.povfF = true → i = .tickP ∧ t.tcntP = 0) ∧
  (s.povfF = true → t.povfF = false → i = .svcPovf) ∧
  (s.mcmpF = false → t.mcmpF = true → i = .tickM ∧ t.tcntM = s.ocrM) ∧
  (s.mcmpF = true → t.mcmpF = false → i = .svcMcmp ∨ (i = .arm ∧ s.motArm = false))

theorem flagWritersOf_of_same {s t : State} (i : Instr) (hzc : t.zcF = s.zcF) (hpovf : t.povfF = s.povfF)
    (hmcmp : t.mcmpF = s.mcmpF) : FlagWritersOf i s t := by
  unfold FlagWritersOf
  rw [hzc, hpovf, hmcmp]
  and_intros <;> intro hold hnew <;> simp [hold] at hnew

theorem Effect.flagWritersOf {i : Instr} {s t : State} (h : Effect i s t) (hreset : i ≠ .reset) :
    FlagWritersOf i s t := by
  cases h with
  | zcenOff => simp +contextual [FlagWritersOf]
  | arm hoff => simp +contextual [FlagWritersOf, hoff]
  | zcToggle h =>
    rw [(zcToggle_next h).1]
    simp +contextual [FlagWritersOf]
  | tickP => simp +contextual [FlagWritersOf]
  | tickM => simp +contextual [FlagWritersOf]
  | svcZc h =>
    obtain ⟨-, rfl⟩ := svcZc_next h
    simp +contextual [FlagWritersOf]
  | svcPovf h =>
    obtain ⟨-, rfl⟩ := svcPovf_next h
    simp +contextual [FlagWritersOf]
  | svcMcmp h =>
    obtain ⟨-, rfl⟩ := svcMcmp_next h
    simp +contextual [FlagWritersOf]
  | reset => exact absurd rfl hreset
  | _ => exact flagWritersOf_of_same _ rfl rfl rfl

/-- Settles O58: each change of `Effect` that writes a flag is its setter or one of its clearers. -/
theorem pendingFlagsHaveOnlyTheirSettersAndClearers : Obligations.PendingFlagsHaveOnlyTheirSettersAndClearers := by
  intro s t i hreset h
  have hperforms : performs i ≠ .reset := fun hi => hreset (eq_of_performs_eq hi (by decide))
  obtain ⟨hzcSet, hzcClear, hpovfSet, hpovfClear, hmcmpSet, hmcmpClear⟩ := (effect_of_exec h).flagWritersOf hperforms
  refine ⟨fun h0 h1 => ⟨eq_of_performs_eq (hzcSet h0 h1).1 (by decide), (hzcSet h0 h1).2⟩, fun h1 h0 => ?_,
    fun h0 h1 => ⟨eq_of_performs_eq (hpovfSet h0 h1).1 (by decide), (hpovfSet h0 h1).2⟩,
    fun h1 h0 => eq_of_performs_eq (hpovfClear h1 h0) (by decide),
    fun h0 h1 => ⟨eq_of_performs_eq (hmcmpSet h0 h1).1 (by decide), (hmcmpSet h0 h1).2⟩, fun h1 h0 => ?_⟩
  · exact (hzcClear h1 h0).imp_left fun hi => eq_of_performs_eq hi (by decide)
  · exact (hmcmpClear h1 h0).imp_left fun hi => eq_of_performs_eq hi (by decide)

/-! ## The motor level (10_state.md R34 (e)) -/

theorem levelUp_ne_zero {m : Fin 6} (h : m ≠ 5) : levelUp m ≠ 0 := by
  revert m
  decide

theorem levelDown_ne_zero {m : Fin 6} (h : 2 ≤ m.val) : levelDown m ≠ 0 := by
  revert m
  decide

theorem levelOf_ne_zero {m : BitVec 3} {l : Fin 6} (h : levelOf m = some l) : l ≠ 0 := by
  obtain ⟨hl, hpos, -⟩ := levelOf_some h
  rintro rfl
  rw [← hl] at hpos
  exact absurd hpos (by decide)

theorem Effect.level_stays_active {i : Instr} {s t : State} (h : Effect i s t) (hreset : i ≠ .reset)
    (hlevel : s.motorMode ≠ 0) : t.motorMode ≠ 0 := by
  cases h with
  | sstart a hm => exact levelOf_ne_zero hm
  | minc _ _ hne => exact levelUp_ne_zero hne
  | mdec _ htwo => exact levelDown_ne_zero htwo
  | zcToggle h =>
    rw [(zcToggle_next h).1]
    exact hlevel
  | svcZc h | svcPovf h | svcMcmp h =>
    have hframe := serviceFrame_of_exec rfl h
    rwa [hframe.motorMode]
  | reset => exact absurd rfl hreset
  | _ => exact hlevel

/-- A legal SSTART with a table selected sets the level that it names. -/
theorem motorMode_of_sstart {m : BitVec 3} {s t : State} (hlegal : (Instr.sstart m).wf = true)
    (hvalid : s.tblValid = true) (h : exec (.sstart m) s = .next t) : t.motorMode.val = m.toNat := by
  obtain ⟨hrefused, -⟩ | ⟨l, a, hlevel, -, heq⟩ | ⟨-, heq⟩ := exec_sstart_cases m s
  · obtain hnone | hinvalid := hrefused
    · simp [levelOf_none hnone] at hlegal
    · simp [hvalid] at hinvalid
  · rw [heq] at h
    cases h
    exact (levelOf_some hlevel).1
  · rw [heq] at h
    cases h

/-- Settles O59: the three level commands leave a level of 1..5, and nothing else but RESET writes it. -/
theorem levelStaysActiveAfterSstart : Obligations.LevelStaysActiveAfterSstart := by
  intro s t i hreset h
  have hperforms : performs i ≠ .reset := fun hi => hreset (eq_of_performs_eq hi (by decide))
  refine ⟨(effect_of_exec h).level_stays_active hperforms, fun m hi hlegal hvalid => ?_⟩
  subst hi
  exact motorMode_of_sstart hlegal hvalid h

/-! ## The detector (41_frequency_detector.md) -/

theorem Effect.detector_waits {i : Instr} {s t : State} (h : Effect i s t) (hbusy : s.fdBusy = true)
    (hedge : i ≠ .zcToggle) (hreset : i ≠ .reset) : t.fdBusy = true ∧ t.fdPhase = s.fdPhase := by
  cases h with
  | fdet _ hidle => simp [hbusy] at hidle
  | zcToggle => exact absurd rfl hedge
  | svcZc h | svcPovf h | svcMcmp h =>
    have hframe := serviceFrame_of_exec rfl h
    exact ⟨hframe.fdBusy.trans hbusy, hframe.fdPhase⟩
  | reset => exact absurd rfl hreset
  | _ => exact ⟨hbusy, rfl⟩

/-- Settles O21: FDET is refused while a measurement runs, so only an edge and RESET write FD_BUSY and FD_PHASE; and
ZCEN 1 asks for FD_BUSY 0. -/
theorem measurementWaitsForItsEdges : Obligations.MeasurementWaitsForItsEdges := by
  intro s t i hbusy hedge hreset h
  have hedge' : performs i ≠ .zcToggle := fun hi => hedge (eq_of_performs_eq hi (by decide))
  have hreset' : performs i ≠ .reset := fun hi => hreset (eq_of_performs_eq hi (by decide))
  obtain ⟨hrun, hphase⟩ := (effect_of_exec h).detector_waits hbusy hedge' hreset'
  exact ⟨hrun, hphase, exec_zcen_true_of_blocked (.inr hrun)⟩

/-- With the detector idle an edge leaves the selection alone. -/
theorem selection_of_zcToggle {s t : State} (hidle : s.fdBusy = false) (h : exec .zcToggle s = .next t) :
    t.tblValid = s.tblValid ∧ t.tblSel = s.tblSel ∧ t.fdCount = s.fdCount ∧ t.fdBusy = s.fdBusy := by
  obtain ⟨-, ⟨hcount, -, hbusy, hsel, hvalid⟩ | ⟨hrun, -⟩ | ⟨hrun, -⟩⟩ := zcToggle_next h
  · exact ⟨hvalid, hsel, hcount, hbusy⟩
  · simp [hidle] at hrun
  · simp [hidle] at hrun

theorem Effect.selection_final {i : Instr} {s t : State} (h : Effect i s t) (hvalid : s.tblValid = true)
    (hidle : s.fdBusy = false) (hreset : i ≠ .reset) :
    t.tblValid = s.tblValid ∧ t.tblSel = s.tblSel ∧ t.fdCount = s.fdCount ∧ t.fdBusy = s.fdBusy := by
  cases h with
  | fdet hinvalid => simp [hvalid] at hinvalid
  | zcToggle h => exact selection_of_zcToggle hidle h
  | tickF hbusy => simp [hidle] at hbusy
  | svcZc h | svcPovf h | svcMcmp h =>
    have hframe := serviceFrame_of_exec rfl h
    exact ⟨hframe.tblValid, hframe.tblSel, hframe.fdCount, hframe.fdBusy⟩
  | reset => exact absurd rfl hreset
  | _ => exact ⟨rfl, rfl, rfl, rfl⟩

/-- Settles O22: by the invariant no measurement runs once a table is selected, and FDET starts none. -/
theorem selectionIsFinal : Obligations.SelectionIsFinal := by
  intro s t i hs hvalid hreset h
  have hidle : s.fdBusy = false := by
    by_contra hbusy
    simp [hs.measuredOnce (Bool.not_eq_false _ ▸ hbusy)] at hvalid
  have hperforms : performs i ≠ .reset := fun hi => hreset (eq_of_performs_eq hi (by decide))
  obtain ⟨hvalid', hsel, hcount, hbusy⟩ := (effect_of_exec h).selection_final hvalid hidle hperforms
  exact ⟨hvalid'.trans hvalid, hsel, hcount, hbusy.trans hidle⟩

end Sys2Proof.Machine
end

section
/-!
PROOFS. Runs of ticks: the detector's count between two edges (41_frequency_detector.md), and the two timers up to
their overflow and their match (43_power_scheduler.md, 44_motor_scheduler.md).
-/

namespace Sys2Proof.Machine

/-! ## The measurement -/

theorem saturatingTick_ofNat_min (n : Nat) :
    saturatingTick (BitVec.ofNat 16 (min n 0xFFFF)) = BitVec.ofNat 16 (min (n + 1) 0xFFFF) := by
  have hfits : min n 0xFFFF % 2 ^ 16 = min n 0xFFFF := Nat.mod_eq_of_lt (by omega)
  rw [saturatingTick_eq_min, BitVec.toNat_ofNat, hfits]
  congr 1
  omega

/-- A running measurement after its falling edge and `n` ticks. -/
def State.measuring (s : State) (n : Nat) : State :=
  { s with fdCount := BitVec.ofNat 16 (min n 0xFFFF), fdPhase := .awaitRising, zcLvl := false }

/-- With the synchronizer off an edge raises no flag. -/
theorem exec_zcToggle_of_disabled {s : State} (hen : s.zcEn = false) :
    exec .zcToggle s = .next { s.detectorEdge (!s.zcLvl) with zcLvl := !s.zcLvl, zcF := s.zcF } := by
  rw [exec_zcToggle, if_neg (by simp [hen])]

/-- The falling edge clears the count. -/
theorem exec_zcToggle_falling {s : State} (hbusy : s.fdBusy = true) (hphase : s.fdPhase = .awaitFalling)
    (hlvl : s.zcLvl = true) (hen : s.zcEn = false) : exec .zcToggle s = .next (s.measuring 0) := by
  rw [exec_zcToggle_of_disabled hen, hlvl, Bool.not_true, State.detectorEdge_falling hbusy hphase]
  rfl

theorem runTimes_tickF_measuring {s : State} (hbusy : s.fdBusy = true) (n : Nat) :
    runTimes n .tickF (s.measuring 0) = .next (s.measuring n) := by
  induction n with
  | zero => rfl
  | succ n ih =>
    have htick : exec .tickF (s.measuring n) = _ := exec_tickF_of_counting hbusy rfl
    refine runTimes_succ ih (htick.trans ?_)
    dsimp only [State.measuring]
    rw [saturatingTick_ofNat_min]

/-- The rising edge completes the detection with the measured value (41_frequency_detector.md R103). -/
theorem exec_zcToggle_rising {s : State} {n : Nat} (hbusy : s.fdBusy = true) (hen : s.zcEn = false) :
    exec .zcToggle (s.measuring n) = .next { (s.measuring n).completeDetection with zcLvl := true } := by
  have hrise : (s.measuring n).detectorEdge true = (s.measuring n).completeDetection :=
    State.detectorEdge_rising hbusy rfl
  have hoff : (s.measuring n).zcEn = false := hen
  have hlow : (!(s.measuring n).zcLvl) = true := rfl
  rw [exec_zcToggle_of_disabled hoff, hlow, hrise]
  rfl

theorem State.measuring_fdCount (s : State) (n : Nat) : (s.measuring n).fdCount.toNat = min n 0xFFFF :=
  Nat.mod_eq_of_lt (by omega)

/-- Settles O20: the falling edge clears the count, the ticks count to `n`, and the rising edge compares that value. -/
theorem measurementCountsTheTicksBetweenTheEdges : Obligations.MeasurementCountsTheTicksBetweenTheEdges := by
  intro s n hbusy hphase hlvl hen
  have hticks : runOps (List.replicate n .tickF) (s.measuring 0) = _ := runTimes_tickF_measuring hbusy n
  rw [List.append_assoc, List.singleton_append, runOps_cons (exec_zcToggle_falling hbusy hphase hlvl hen),
    runOps_append hticks, runOps_cons (exec_zcToggle_rising hbusy hen), runOps_nil, State.completeDetection,
    State.measuring_fdCount, ← hlvl]
  rfl

/-! ## The power timer -/

/-- Ticks that do not reach `2^W` only count. -/
theorem runTimes_tickP_of_lt {s : State} {n : Nat} (h : s.tcntP + n < 2 ^ s.cfg.W) :
    runTimes n .tickP s = .next { s with tcntP := s.tcntP + n } := by
  induction n with
  | zero => rfl
  | succ n ih =>
    refine runTimes_succ (ih (by omega)) ?_
    rw [exec_tickP]
    dsimp only
    rw [Nat.mod_eq_of_lt (by omega), if_neg (by omega), Nat.add_assoc]

/-- The tick that reaches `2^W` wraps to 0 and raises the flag. -/
theorem runTimes_tickP_wrap {s : State} {d : Nat} (hd : 1 ≤ d) (h : s.tcntP + d = 2 ^ s.cfg.W) :
    runTimes d .tickP s = .next { s with tcntP := 0, povfF := true } := by
  obtain ⟨n, rfl⟩ := Nat.exists_eq_add_of_le' hd
  refine runTimes_succ (runTimes_tickP_of_lt (by omega)) ?_
  rw [exec_tickP]
  dsimp only
  rw [Nat.add_assoc, h, Nat.mod_self, if_pos rfl]

/-- Settles O30: `d` more ticks from `2^W - d` reach `2^W`, and fewer do not. -/
theorem countdownOverflowsOnExactlyTheDthTick : Obligations.CountdownOverflowsOnExactlyTheDthTick := by
  intro s d hd hmax hload _
  have hlt := hmax.trans_lt s.cfg.cmpMax_lt
  refine ⟨fun n hn => ?_, runTimes_tickP_wrap hd (by omega)⟩
  rw [runTimes_tickP_of_lt (by omega), hload]

/-! ## The motor timer -/

/-- The tick on which the match comes: the compare value, or a full turn of the counter for 0. -/
def State.matchTick (s : State) : Nat := if s.ocrM = 0 then 2 ^ s.cfg.W else s.ocrM

/-- Up to that tick no count is the compare value, and at it the count modulo `2^W` is. -/
theorem matchTick_spec {s : State} (h : s.ocrM < 2 ^ s.cfg.W) :
    1 ≤ s.matchTick ∧ s.matchTick ≤ 2 ^ s.cfg.W ∧ s.matchTick % 2 ^ s.cfg.W = s.ocrM ∧
    ∀ k, 1 ≤ k → k < s.matchTick → k ≠ s.ocrM := by
  have hpos := Nat.two_pow_pos s.cfg.W
  unfold State.matchTick
  split
  case isTrue hzero => exact ⟨hpos, le_rfl, by rw [Nat.mod_self, hzero], fun k hk _ => by omega⟩
  case isFalse hne => exact ⟨by omega, h.le, Nat.mod_eq_of_lt h, fun k _ hk => hk.ne⟩

/-- Before that tick the motor timer only counts. -/
theorem runTimes_tickM_before {s : State} {n : Nat} (h0 : s.tcntM = 0) (hocr : s.ocrM < 2 ^ s.cfg.W)
    (hn : n < s.matchTick) : runTimes n .tickM s = .next { s with tcntM := n } := by
  obtain ⟨-, hturn, -, hno⟩ := matchTick_spec hocr
  induction n with
  | zero =>
    cases s
    cases h0
    rfl
  | succ n ih =>
    refine runTimes_succ (ih (by omega)) ?_
    rw [exec_tickM]
    dsimp only
    rw [Nat.mod_eq_of_lt (hn.trans_le hturn), if_neg (hno _ (by omega) hn)]

/-- At that tick the match comes. -/
theorem runTimes_tickM_match {s : State} (h0 : s.tcntM = 0) (hocr : s.ocrM < 2 ^ s.cfg.W) :
    runTimes s.matchTick .tickM s = .next { s with tcntM := s.ocrM, mcmpF := true } := by
  obtain ⟨hpos, -, hmod, -⟩ := matchTick_spec hocr
  obtain ⟨n, hn⟩ := Nat.exists_eq_add_of_le' hpos
  rw [hn]
  refine runTimes_succ (runTimes_tickM_before h0 hocr (by omega)) ?_
  rw [exec_tickM]
  dsimp only
  rw [← hn, hmod, if_pos rfl]

/-- Settles O36: `State.matchTick` is the tick that the statement names. -/
theorem matchComesOnExactlyTheCthTick : Obligations.MatchComesOnExactlyTheCthTick :=
  fun _ h0 _ hocr => ⟨fun _ => runTimes_tickM_before h0 hocr, runTimes_tickM_match h0 hocr⟩

end Sys2Proof.Machine
end

section
/-!
PROOFS. The edge service (42_zero_cross_sync.md R108) and what it schedules: its whole update, merged edges, the timed
and the forced power pulse (43_power_scheduler.md), the motor pulse (44_motor_scheduler.md) and the decay of the ramp
(45_soft_start.md R137).
-/

namespace Sys2Proof.Machine

/-! ## The six steps -/

/-- SVC_ZC completes when its flag is 1. -/
theorem exec_svcZc_of_pending {s : State} (h : s.zcF = true) : ∃ t, exec .svcZc s = .next t :=
  (exec_svcZc_completes_iff s).2 h

theorem exec_svcZc_of_not_pending {s : State} (h : s.zcF = false) : exec .svcZc s = .refused .serviceNotEnabled :=
  (exec_svcZc_eq_service s).trans (service_of_not_enabled (by rw [State.zc_enabled, h]))

theorem State.table_eq_ite (s : State) : s.table = if s.tblSel = .hz50 then s.cfg.tbl50 else s.cfg.tbl60 := by
  unfold State.table
  cases s.tblSel <;> rfl

/-- The countdown of the selected delay under well-formed parameters. -/
theorem State.countdown_powerDelay {s : State} (hwf : s.cfg.wf = true) :
    countdown s.cfg (powerDelay s.table s.psm) = 2 ^ s.cfg.W - powerDelay s.table s.psm := by
  obtain ⟨hpos, hlt⟩ := PhaseTable.wf_power (State.table_wf hwf) s.psm
  exact countdown_of_pos hpos (hlt.trans s.cfg.cmpMax_lt)

/-- Settles O24: the update of `svcZc_next` with the table, the delay and the sum under the statement's names. -/
theorem zeroCrossServiceDoesItsSixSteps : Obligations.ZeroCrossServiceDoesItsSixSteps := by
  refine ⟨rfl, fun s T d c hwf hflag hT hd hc => ?_⟩
  rw [← State.table_eq_ite] at hT
  subst hT
  change d = powerDelay s.table s.psm at hd
  change c = s.compareSum at hc
  have hshift : (if s.shift = 0 then s.shift else s.shift - 2) = if s.shift = 0 then 0 else s.shift - 2 :=
    ite_congr rfl id fun _ => rfl
  obtain ⟨t, ht⟩ := exec_svcZc_of_pending hflag
  rw [ht, (svcZc_next ht).2, State.countdown_powerDelay hwf, ← hd, ← hc, or_decide_eq_ite, hshift]
  rfl

/-! ## Merged edges (70_reset_and_hazards.md, section 3) -/

/-- With the synchronizer on, an edge completes and leaves the service pending. -/
theorem exec_zcToggle_of_enabled {s : State} (h : s.zcEn = true) : ∃ t, exec .zcToggle s = .next t ∧
    t.zcF = true ∧ t.zcEn = true ∧ t.zcLvl = (!s.zcLvl) ∧ t.hc = s.hc ∧ t.shift = s.shift ∧
    t.motorMode = s.motorMode := by
  refine ⟨_, exec_zcToggle s, ?_⟩
  rw [(zcToggle_next (exec_zcToggle s)).1]
  simp [h]

/-- Settles O26: each edge leaves the flag at 1, and the one service clears it. -/
theorem twoEdgesBeforeServiceGiveOneHalfCycle : Obligations.TwoEdgesBeforeServiceGiveOneHalfCycle := by
  intro s hen _
  obtain ⟨a, ha, -, hena, hlvla, hhca, -, -⟩ := exec_zcToggle_of_enabled hen
  obtain ⟨b, hb, hflag, -, hlvlb, hhcb, -, -⟩ := exec_zcToggle_of_enabled hena
  obtain ⟨t, ht⟩ := exec_svcZc_of_pending hflag
  refine ⟨t, by rw [runOps_cons ha, runOps_cons hb, runOps_cons ht, runOps_nil], ?_⟩
  have hclear : t.zcF = false := by rw [(svcZc_next ht).2]
  refine ⟨?_, hclear, ?_, exec_svcZc_of_not_pending hclear⟩
  · rw [(svcZc_schedule ht).2.1, hhcb, hhca]
  · rw [(svcZc_next ht).2]
    dsimp only
    rw [hlvlb, hlvla, Bool.not_not]

/-! ## The decay of the ramp -/

/-- One half-cycle: an edge and its service complete, keep the invariant and the enable, and take two from SHIFT. -/
theorem halfCycle_completes {s : State} (hs : s.Inv) (hen : s.zcEn = true) : ∃ t,
    runOps [.zcToggle, .svcZc] s = .next t ∧ t.Inv ∧ t.zcEn = true ∧ t.shift.toNat = s.shift.toNat - 2 ∧
    t.hc = s.hc + 1 ∧ t.motorMode = s.motorMode := by
  obtain ⟨a, ha, hflag, hena, -, hhc, hshift, hmode⟩ := exec_zcToggle_of_enabled hen
  obtain ⟨t, ht⟩ := exec_svcZc_of_pending hflag
  have hframe := serviceFrame_of_exec rfl ht
  have hainv := exec_keeps_inv hs ha
  refine ⟨t, by rw [runOps_cons ha, runOps_cons ht, runOps_nil], exec_keeps_inv hainv ht, hframe.zcEn.trans hena,
    ?_, ?_, hframe.motorMode.trans hmode⟩
  · rw [(svcZc_next ht).2]
    dsimp only
    rw [decayed_toNat hainv.shiftEven, hshift]
  · rw [(svcZc_schedule ht).2.1, hhc]

/-- Settles O42: by induction on the half-cycles, from `halfCycle_completes`. -/
theorem rampUnwindsByTwoEachHalfCycle : Obligations.RampUnwindsByTwoEachHalfCycle := by
  intro s k hs hen
  induction k generalizing s with
  | zero => exact ⟨s, rfl, rfl, rfl, rfl⟩
  | succ k ih =>
    obtain ⟨a, ha, hainv, haen, hashift, hahc, hamode⟩ := halfCycle_completes hs hen
    obtain ⟨t, ht, hshift, hhc, hmode⟩ := ih a hainv haen
    refine ⟨t, ?_, by omega, by omega, hmode.trans hamode⟩
    rw [List.replicate_succ, List.flatten_cons, runOps_append ha, ht]

/-! ## Services after an edge service -/

/-- Once ZC_F is 0, the overflow service waits for its own flag alone, under either order. -/
theorem serviceEnabled_povf_of_no_edge {s : State} (hzc : s.zcF = false) (hflag : s.povfF = true) :
    s.serviceEnabled .povf = true := by
  cases horder : s.cfg.serviceOrder <;> simp [State.serviceEnabled, horder, State.pendingFlag, hzc, hflag]

theorem serviceEnabled_mcmp_of_no_other {s : State} (hzc : s.zcF = false) (hpovf : s.povfF = false)
    (hflag : s.mcmpF = true) : s.serviceEnabled .mcmp = true := by
  cases horder : s.cfg.serviceOrder <;> simp [State.serviceEnabled, horder, State.pendingFlag, hzc, hpovf, hflag]

/-! ## The power pulse -/

/-- What the edge service leaves to the power timer: the countdown of `d`, the forced pulse, and the timed one unless it
is replaced. -/
theorem svcZc_power {s t : State} {d : Nat} (hwf : s.cfg.wf = true) (hen : s.pwrEn = true)
    (hd : d = powerDelay s.table s.psm) (h : exec .svcZc s = .next t) :
    t.cfg = s.cfg ∧ t.zcF = false ∧ t.povfF = s.povfF ∧ t.pwrEn = true ∧ t.hc = s.hc + 1 ∧ t.tcntM = 0 ∧
    t.tcntP = 2 ^ s.cfg.W - d ∧
    t.pstate = (if s.psm = true ∧ s.cfg.forcePolicy = .replace then .idle else .pending) ∧
    t.trace = s.trace ++ if s.psm = true then [⟨.pwr, s.hc + 1, 2 ^ s.cfg.W - d, 0⟩] else [] := by
  obtain ⟨-, rfl⟩ := svcZc_next h
  refine ⟨rfl, rfl, rfl, hen, rfl, rfl, ?_, rfl, ?_⟩
  · rw [hd, ← State.countdown_powerDelay hwf]
  · rw [hd, ← State.countdown_powerDelay hwf]
    cases hpsm : s.psm <;> simp [hen]

/-- The overflow service with the channel on records a pulse exactly from PENDING. -/
theorem exec_svcPovf_of_channel_on {s : State} (h : s.serviceEnabled .povf = true) (hen : s.pwrEn = true) :
    ∃ t, exec .svcPovf s = .next t ∧
      t.trace = s.trace ++ (if s.pstate = .idle then [] else [⟨.pwr, s.hc, s.tcntP, s.tcntM⟩]) ∧
      t.pstate = .idle ∧ t.povfF = false := by
  have hexec := exec_svcPovf_of_enabled h
  refine ⟨_, hexec, ?_⟩
  rw [(svcPovf_next hexec).2]
  cases hpstate : s.pstate <;> simp [hen]

/-- Settles O31: the edge service loads the countdown of `d`, the ticks overflow on the `d`-th, and the overflow service
finds PENDING unless the forced pulse replaced the timed one. -/
theorem timedPowerPulseComesAtItsDelay : Obligations.TimedPowerPulseComesAtItsDelay := by
  intro s d forced hwf hflag hen hpovf hd hforced
  obtain ⟨u, hu⟩ := exec_svcZc_of_pending hflag
  obtain ⟨hcfg, hzc, hupovf, huen, hhc, htm, htp, hpstate, htrace⟩ := svcZc_power hwf hen hd hu
  rw [← hforced] at htrace
  obtain ⟨hpos, hlt⟩ := PhaseTable.wf_power (State.table_wf hwf) s.psm
  have hmax := s.cfg.cmpMax_lt
  rw [← hd] at hpos hlt
  refine ⟨fun n hn => ⟨{ u with tcntP := u.tcntP + n }, ?_, hupovf.trans hpovf, htrace⟩, ?_⟩
  · rw [List.singleton_append, runOps_cons hu]
    exact runTimes_tickP_of_lt (by rw [hcfg, htp]; omega)
  · have hticks : runTimes d .tickP u = .next { u with tcntP := 0, povfF := true } :=
      runTimes_tickP_wrap hpos (by rw [hcfg, htp]; omega)
    have hflagged : ({ u with tcntP := 0, povfF := true } : State).serviceEnabled .povf = true :=
      serviceEnabled_povf_of_no_edge hzc rfl
    obtain ⟨t, ht, httrace, htstate, htpovf⟩ := exec_svcPovf_of_channel_on hflagged huen
    refine ⟨t, ?_, ?_, htstate, htpovf⟩
    · rw [List.append_assoc, List.singleton_append, runOps_cons hu]
      exact (runOps_append hticks _).trans (runOps_cons ht [])
    · rw [httrace]
      dsimp only
      rw [htrace, hpstate, hhc, htm]
      split <;> simp

/-! ## The motor pulse -/

/-- What the edge service leaves to the motor timer: the compare sum modulo `2^W`, and a pulse still allowed. -/
theorem svcZc_motor {s t : State} (h : exec .svcZc s = .next t) :
    t.cfg = s.cfg ∧ t.zcF = false ∧ t.povfF = s.povfF ∧ t.mcmpF = s.mcmpF ∧ t.motArm = s.motArm ∧
    t.mstate = .pending ∧ t.hc = s.hc + 1 ∧ t.tcntM = 0 ∧ t.ocrM = wrapW s.cfg s.compareSum := by
  obtain ⟨-, rfl⟩ := svcZc_next h
  exact ⟨rfl, rfl, rfl, rfl, rfl, rfl, rfl, rfl, rfl⟩

theorem exec_svcMcmp_of_armed_pending {s : State} (h : s.serviceEnabled .mcmp = true) (harm : s.motArm = true)
    (hpending : s.mstate = .pending) : exec .svcMcmp s = .next { s with
      mcmpF := false
      trace := s.trace ++ [⟨.mot, s.hc, s.tcntP, s.tcntM⟩]
      motOutN := 0b11
      ocrM := s.cfg.cmpMax
      mstate := .idle } := by
  rw [exec_svcMcmp_of_enabled h, State.serviceMatch_of_armed_pending harm hpending]

/-- The sum is at least the delay of the level, which is positive (00_scope.md R8). -/
theorem State.compareSum_pos {s : State} (hwf : s.cfg.wf = true) : 1 ≤ s.compareSum :=
  (PhaseTable.wf_delay (State.table_wf hwf) s.motorMode).1.trans (Nat.le_add_right _ _)

/-- Settles O37: the edge service loads the sum, which fits OCR_M, and the match service finds the scheduler armed and
PENDING. -/
theorem motorPulseComesAtTheCompareDelay : Obligations.MotorPulseComesAtTheCompareDelay := by
  intro s c hwf hflag hmcmp hpovf harm hc hmax
  change c = s.compareSum at hc
  obtain ⟨u, hu⟩ := exec_svcZc_of_pending hflag
  obtain ⟨hcfg, hzc, hupovf, humcmp, huarm, hmstate, hhc, htm, hocr⟩ := svcZc_motor hu
  rw [hmcmp] at humcmp
  have hlt : c < 2 ^ s.cfg.W := hmax.trans_lt s.cfg.cmpMax_lt
  have hne : c ≠ 0 := Nat.one_le_iff_ne_zero.1 (hc ▸ State.compareSum_pos hwf)
  rw [← hc, wrapW_of_lt hlt] at hocr
  have htick : u.matchTick = c := by rw [State.matchTick, hocr, if_neg hne]
  have hocrLt : u.ocrM < 2 ^ u.cfg.W := by rwa [hocr, hcfg]
  refine ⟨u, hu, humcmp, fun n hn => runTimes_tickM_before htm hocrLt (htick ▸ hn), ?_⟩
  have hticks : runOps (List.replicate c .tickM) u = .next { u with tcntM := u.ocrM, mcmpF := true } :=
    htick ▸ runTimes_tickM_match htm hocrLt
  have hmatched : ({ u with tcntM := u.ocrM, mcmpF := true } : State).serviceEnabled .mcmp = true :=
    serviceEnabled_mcmp_of_no_other hzc (hupovf.trans hpovf) rfl
  have hsvc := exec_svcMcmp_of_armed_pending hmatched (huarm.trans harm) hmstate
  rw [runOps_append hticks, runOps_cons hsvc, runOps_nil, hcfg, hhc, humcmp, hocr]

/-- Settles O38: the edge service keeps MCMP_F and starts TCNT_M at 0, and the match service finds the scheduler armed
and PENDING. -/
theorem staleMatchFiresAtTheZeroCrossing : Obligations.StaleMatchFiresAtTheZeroCrossing := by
  intro s _ horder hflag hmcmp harm
  obtain ⟨u, hu⟩ := exec_svcZc_of_pending hflag
  obtain ⟨hcfg, -, -, humcmp, huarm, hmstate, hhc, htm, -⟩ := svcZc_motor hu
  have hen : u.serviceEnabled .mcmp = true := by
    rw [State.serviceEnabled_of_unconstrained (hcfg ▸ horder)]
    exact humcmp.trans hmcmp
  have hsvc := exec_svcMcmp_of_armed_pending hen (huarm.trans harm) hmstate
  refine ⟨_, by rw [runOps_cons hu, runOps_cons hsvc, runOps_nil], rfl, rfl, ?_⟩
  simp [hhc, htm]

end Sys2Proof.Machine
end

section
/-!
PROOFS. The soft-start ramp across level changes (45_soft_start.md; 70_reset_and_hazards.md, section 3): the compare
sum of the next edge service, the round trip, and the restart.
-/

namespace Sys2Proof.Machine

/-! ## A level change, under well-formed tables -/

/-- From the levels 1 to 4 a MINC goes up one level. -/
theorem exec_minc_of_mid {s : State} (hwf : s.cfg.wf = true) (hvalid : s.tblValid = true)
    (hlow : 1 ≤ s.motorMode.val) (hhigh : s.motorMode.val ≤ 4) : exec .minc s = .next s.afterMinc := by
  obtain ⟨hblocked, -⟩ | ⟨-, hfive, -⟩ | ⟨-, -, -, h⟩ | ⟨hforeign, -⟩ := exec_minc_cases s
  · simp only [hvalid, Bool.true_eq_false, false_or] at hblocked
    omega
  · omega
  · exact h
  · simp [hwf] at hforeign

/-- From the levels 2 to 5 an MDEC goes down one level. -/
theorem exec_mdec_of_mid {s : State} (hwf : s.cfg.wf = true) (hvalid : s.tblValid = true)
    (hlow : 2 ≤ s.motorMode.val) : exec .mdec s = .next s.afterMdec := by
  obtain ⟨hblocked, -⟩ | ⟨-, hone, -⟩ | ⟨-, -, h⟩ | ⟨hforeign, -⟩ := exec_mdec_cases s
  · simp only [hvalid, Bool.true_eq_false, false_or] at hblocked
    omega
  · omega
  · exact h
  · simp [hwf] at hforeign

theorem State.mincDelta_add {s : State} (hwf : s.cfg.wf = true) (hhigh : s.motorMode.val ≤ 4) :
    motorDelay s.table (levelUp s.motorMode) + s.mincDelta = motorDelay s.table s.motorMode := by
  have hval : (levelUp s.motorMode).val = s.motorMode.val + 1 := levelUp_val (by omega)
  have hlt : s.motorMode < levelUp s.motorMode := Fin.lt_def.2 (by omega)
  exact Nat.add_sub_cancel' (PhaseTable.wf_decreasing (State.table_wf hwf) hlt).le

theorem State.mdecDelta_add {s : State} (hwf : s.cfg.wf = true) (hlow : 1 ≤ s.motorMode.val) :
    motorDelay s.table s.motorMode + s.mdecDelta = motorDelay s.table (levelDown s.motorMode) := by
  have hval : s.motorMode.val = (levelDown s.motorMode).val + 1 := levelDown_val (by omega)
  have hlt : levelDown s.motorMode < s.motorMode := Fin.lt_def.2 (by omega)
  exact Nat.add_sub_cancel' (PhaseTable.wf_decreasing (State.table_wf hwf) hlt).le

/-- The raw delta of a MINC is below CMP_MAX, so far below 2^16. -/
theorem State.mincDelta_lt {s : State} (hwf : s.cfg.wf = true) : s.mincDelta < s.cfg.cmpMax ∧ s.cfg.cmpMax < 16384 := by
  have htop := (PhaseTable.wf_delay (State.table_wf hwf) s.motorMode).2
  obtain ⟨-, -, hwidth⟩ := Params.wf_width hwf
  exact ⟨(Nat.sub_le _ _).trans_lt htop, s.cfg.cmpMax_lt.trans_le hwidth⟩

/-! ## The compare sum after a level change -/

theorem State.afterMinc_compareSum (s : State) : s.afterMinc.compareSum =
    motorDelay s.table (levelUp s.motorMode) + (s.shift.toNat + evenUp s.mincDelta) % 2 ^ 16 := by
  rw [← BitVec.toNat_ofNat]
  rfl

/-- A MINC keeps the sum up to the parity of its delta, or loses 2^16. -/
theorem State.afterMinc_rebases {s : State} (hwf : s.cfg.wf = true) (hhigh : s.motorMode.val ≤ 4) :
    (s.shift.toNat + evenUp s.mincDelta ≤ 0xFFFF → s.afterMinc.compareSum = s.compareSum + s.mincDelta % 2) ∧
    (0xFFFF < s.shift.toNat + evenUp s.mincDelta →
      s.afterMinc.compareSum + 2 ^ 16 = s.compareSum + s.mincDelta % 2) := by
  have hdelta := State.mincDelta_add hwf hhigh
  obtain ⟨hsmall, hmax⟩ := State.mincDelta_lt hwf
  have hshift := s.shift.isLt
  rw [State.afterMinc_compareSum, State.compareSum, evenUp]
  omega

theorem State.afterMdec_shift (s : State) : s.afterMdec.shift.toNat =
    if s.shift.toNat > s.mdecDelta then s.shift.toNat - evenUp s.mdecDelta else s.shift.toNat := by
  unfold State.afterMdec
  split
  case isTrue habove =>
    have hlt := s.shift.isLt
    rw [shift_sub_ofNat (evenUp_le_of_lt habove), BitVec.toNat_ofNat, Nat.mod_eq_of_lt (by omega)]
  case isFalse => rfl

theorem State.afterMdec_compareSum (s : State) :
    s.afterMdec.compareSum = motorDelay s.table (levelDown s.motorMode) + s.afterMdec.shift.toNat := rfl

/-- An MDEC lowers the sum by the parity of its delta, or raises it by the whole delta. -/
theorem State.afterMdec_rebases {s : State} (hwf : s.cfg.wf = true) (hlow : 1 ≤ s.motorMode.val) :
    (s.mdecDelta < s.shift.toNat → s.afterMdec.compareSum + s.mdecDelta % 2 = s.compareSum) ∧
    (s.shift.toNat ≤ s.mdecDelta → s.afterMdec.compareSum = s.compareSum + s.mdecDelta) := by
  have hdelta := State.mdecDelta_add hwf hlow
  rw [State.afterMdec_compareSum, State.afterMdec_shift, State.compareSum]
  refine ⟨fun habove => ?_, fun hbelow => ?_⟩
  · have heven := evenUp_le_of_lt habove
    rw [if_pos habove]
    unfold evenUp at heven ⊢
    omega
  · rw [if_neg (by omega)]
    omega

/-- Settles O43: the statement's delta is that of the command, and the sum is that of `State.afterMinc` and
`State.afterMdec`. -/
theorem levelChangesRebaseTheCompareTarget : Obligations.LevelChangesRebaseTheCompareTarget := by
  refine fun s t a hwf hvalid => ⟨fun hlow hhigh h ha => ?_, fun hlow h ha => ?_⟩
  · rw [exec_minc_of_mid hwf hvalid hlow hhigh] at h
    cases h
    change a = s.mincDelta at ha
    subst ha
    exact ⟨levelUp_val (by omega), State.afterMinc_rebases hwf hhigh⟩
  · rw [exec_mdec_of_mid hwf hvalid hlow] at h
    cases h
    change a = s.mdecDelta at ha
    subst ha
    exact ⟨(levelDown_val (by omega)).symm, State.afterMdec_rebases hwf (by omega)⟩

/-! ## The round trip -/

theorem levelDown_levelUp {m : Fin 6} (h : m.val ≤ 4) : levelDown (levelUp m) = m := by
  revert m
  decide

theorem State.afterMinc_mdecDelta {s : State} (hhigh : s.motorMode.val ≤ 4) : s.afterMinc.mdecDelta = s.mincDelta := by
  change motorDelay s.table (levelDown (levelUp s.motorMode)) - motorDelay s.table (levelUp s.motorMode) = _
  rw [levelDown_levelUp hhigh]
  rfl

/-- Where MINC's result fits and SHIFT is not 0, MDEC takes back what MINC added. -/
theorem State.afterMdec_afterMinc {s : State} (hhigh : s.motorMode.val ≤ 4) (hpos : 0 < s.shift.toNat)
    (hfits : s.shift.toNat + evenUp s.mincDelta ≤ 0xFFFF) : s.afterMinc.afterMdec = s := by
  have hraised : s.afterMinc.shift.toNat = s.shift.toNat + evenUp s.mincDelta := Nat.mod_eq_of_lt (by omega)
  have habove : s.afterMinc.shift.toNat > s.afterMinc.mdecDelta := by
    have hle := (evenUp_le s.mincDelta).1
    rw [hraised, State.afterMinc_mdecDelta hhigh]
    omega
  have hshift : s.afterMinc.afterMdec.shift = s.shift := by
    apply BitVec.eq_of_toNat_eq
    rw [State.afterMdec_shift, if_pos habove, State.afterMinc_mdecDelta hhigh, hraised, Nat.add_sub_cancel]
  have hlevel : s.afterMinc.afterMdec.motorMode = s.motorMode := levelDown_levelUp hhigh
  have hfault : s.afterMinc.afterMdec.fault = s.fault := by
    change (s.fault || decide (s.shift.toNat + evenUp s.mincDelta > 0xFFFF)) = s.fault
    rw [decide_eq_false (by omega), Bool.or_false]
  calc s.afterMinc.afterMdec
      = { s with
          shift := s.afterMinc.afterMdec.shift
          motorMode := s.afterMinc.afterMdec.motorMode
          fault := s.afterMinc.afterMdec.fault } := rfl
    _ = s := by rw [hshift, hlevel, hfault]

/-- Settles O44: the premise on the sum bounds MINC's result, and the level that MINC leaves is one that MDEC lowers. -/
theorem levelUpThenDownMidRampReturnsTheState : Obligations.LevelUpThenDownMidRampReturnsTheState := by
  intro s hwf hvalid hlow hhigh hpos hsum
  have hfits : s.shift.toNat + evenUp s.mincDelta ≤ 0xFFFF := by
    have hsmall := (State.mincDelta_lt hwf).1
    have heven := (evenUp_le s.mincDelta).2
    omega
  have hlevel : 2 ≤ s.afterMinc.motorMode.val := by
    change 2 ≤ (levelUp s.motorMode).val
    rw [levelUp_val (by omega)]
    omega
  have hmdec : exec .mdec s.afterMinc = .next s.afterMinc.afterMdec := exec_mdec_of_mid hwf hvalid hlevel
  rw [runOps_cons (exec_minc_of_mid hwf hvalid hlow hhigh), runOps_cons hmdec, runOps_nil,
    State.afterMdec_afterMinc hhigh hpos hfits]

/-! ## The restart -/

/-- ARM completes armed, and changes nothing but the arming, the match flag and MSTATE. -/
theorem exec_arm_completes (s : State) : ∃ t, exec .arm s = .next t ∧ t.motArm = true ∧ t.motorMode = s.motorMode ∧
    t.shift = s.shift ∧ t.compareSum = s.compareSum ∧ (s.motArm = false → t.mstate = .idle ∧ t.mcmpF = false) := by
  obtain harmed | hoff := Bool.eq_false_or_eq_true s.motArm
  · exact ⟨s, exec_arm_of_armed harmed, harmed, rfl, rfl, rfl, fun h => by simp [harmed] at h⟩
  · exact ⟨_, exec_arm_of_disarmed hoff, rfl, rfl, rfl, rfl, fun _ => ⟨rfl, rfl⟩⟩

/-- Settles O45: SSTART sets the level and the even span whatever they were, and ARM keeps both. -/
theorem reopeningTheFilterRestartsTheSameRamp : Obligations.ReopeningTheFilterRestartsTheSameRamp := by
  intro s m l hwf hvalid hl hlow hhigh
  have hpos : 0 < l := Fin.lt_def.2 hlow
  have hstart := exec_sstart_of_valid hvalid (levelOf_of_mem hl (hl ▸ ⟨hlow, hhigh⟩)) (delayFall_of_wf hwf hpos)
  obtain ⟨t, ht, harm, hmode, hshift, hsum, hdisarmed⟩ := exec_arm_completes
    { s with motorMode := l, shift := BitVec.ofNat 16 (evenUp (motorDelay s.table 0 - motorDelay s.table l)) }
  have hspan : (BitVec.ofNat 16 (evenUp (motorDelay s.table 0 - motorDelay s.table l))).toNat =
      evenUp (motorDelay s.table 0 - motorDelay s.table l) := by
    have hbound := (span_bounds hwf hpos rfl).1
    have hmax := (State.mincDelta_lt hwf).2
    exact Nat.mod_eq_of_lt (by omega)
  refine ⟨t, by rw [runOps_cons hstart, runOps_cons ht, runOps_nil], harm, hmode, by rw [hshift, hspan], hdisarmed, ?_⟩
  have hfall := PhaseTable.wf_decreasing (State.table_wf hwf) hpos
  rw [hsum]
  change motorDelay s.table l + (BitVec.ofNat 16 _).toNat = _ ∨ motorDelay s.table l + (BitVec.ofNat 16 _).toNat = _
  rw [hspan, evenUp]
  omega

end Sys2Proof.Machine
end

section
/-!
PROOFS. The two timer services in either order (60_exceptions.md R157, R158): neither writes what the other reads but
the trace.
-/

namespace Sys2Proof.Machine

/-- The power record of an overflow service, if it makes one (43_power_scheduler.md R121). -/
def State.overflowRecord (s : State) : List Pulse :=
  if s.pstate = .pending ∧ s.pwrEn = true then [⟨.pwr, s.hc, s.tcntP, s.tcntM⟩] else []

/-- The motor record of a match service, if it makes one (44_motor_scheduler.md R131). -/
def State.matchRecord (s : State) : List Pulse :=
  if s.mstate = .pending ∧ s.motArm = true then [⟨.mot, s.hc, s.tcntP, s.tcntM⟩] else []

/-- The two effects as one record update each. -/
theorem State.serviceOverflow_eq (s : State) : s.serviceOverflow = { s with
    povfF := false
    pstate := .idle
    trace := s.trace ++ s.overflowRecord
    pwrOutN := if s.pstate = .pending ∧ s.pwrEn = true then 0b11 else s.pwrOutN } := by
  unfold State.overflowRecord
  cases hpstate : s.pstate <;> cases hen : s.pwrEn <;> simp [State.serviceOverflow, State.emit_pwr, hpstate, hen]

theorem State.serviceMatch_eq (s : State) : s.serviceMatch = { s with
    mcmpF := false
    mstate := if s.motArm = true then .idle else s.mstate
    ocrM := if s.motArm = true then s.cfg.cmpMax else s.ocrM
    trace := s.trace ++ s.matchRecord
    motOutN := if s.mstate = .pending ∧ s.motArm = true then 0b11 else s.motOutN } := by
  unfold State.matchRecord
  cases hmstate : s.mstate <;> cases harm : s.motArm <;> simp [State.serviceMatch, State.emit_mot, hmstate, harm]

/-- The two effects commute on every field but the trace. -/
theorem State.timerServices_commute (s : State) : s.serviceMatch.serviceOverflow =
    { s.serviceOverflow.serviceMatch with trace := s.serviceMatch.serviceOverflow.trace } := by
  rw [State.serviceOverflow_eq s.serviceMatch, State.serviceMatch_eq s.serviceOverflow, State.serviceMatch_eq s,
    State.serviceOverflow_eq s]

theorem State.timerServices_trace_perm (s : State) :
    s.serviceOverflow.serviceMatch.trace.Perm s.serviceMatch.serviceOverflow.trace := by
  rw [State.serviceOverflow_eq s.serviceMatch, State.serviceMatch_eq s.serviceOverflow, State.serviceMatch_eq s,
    State.serviceOverflow_eq s]
  change ((s.trace ++ s.overflowRecord) ++ s.matchRecord).Perm ((s.trace ++ s.matchRecord) ++ s.overflowRecord)
  rw [List.append_assoc, List.append_assoc]
  exact List.perm_append_comm.append_left _

theorem serviceEnabled_of_unconstrained_of_flag {s : State} {v : Service} (horder : s.cfg.serviceOrder = .unconstrained)
    (hflag : s.pendingFlag v = true) : s.serviceEnabled v = true := by
  rwa [State.serviceEnabled_of_unconstrained horder]

theorem runOps_svcPovf_svcMcmp {s : State} (horder : s.cfg.serviceOrder = .unconstrained) (hpovf : s.povfF = true)
    (hmcmp : s.mcmpF = true) : runOps [.svcPovf, .svcMcmp] s = .next s.serviceOverflow.serviceMatch := by
  have hfirst : exec .svcPovf s = .next s.serviceOverflow :=
    exec_svcPovf_of_enabled (serviceEnabled_of_unconstrained_of_flag horder hpovf)
  have hen : s.serviceOverflow.serviceEnabled .mcmp = true := by
    rw [State.serviceOverflow_eq]
    exact serviceEnabled_of_unconstrained_of_flag horder hmcmp
  rw [runOps_cons hfirst, runOps_cons (exec_svcMcmp_of_enabled hen), runOps_nil]

theorem runOps_svcMcmp_svcPovf {s : State} (horder : s.cfg.serviceOrder = .unconstrained) (hpovf : s.povfF = true)
    (hmcmp : s.mcmpF = true) : runOps [.svcMcmp, .svcPovf] s = .next s.serviceMatch.serviceOverflow := by
  have hfirst : exec .svcMcmp s = .next s.serviceMatch :=
    exec_svcMcmp_of_enabled (serviceEnabled_of_unconstrained_of_flag horder hmcmp)
  have hen : s.serviceMatch.serviceEnabled .povf = true := by
    rw [State.serviceMatch_eq]
    exact serviceEnabled_of_unconstrained_of_flag horder hpovf
  rw [runOps_cons hfirst, runOps_cons (exec_svcPovf_of_enabled hen), runOps_nil]

/-- Settles O60: each service leaves the other's flag and record alone, so the two ends differ only in the order in
which the records were appended; both flags are 0 at the end. -/
theorem timerServicesCommuteUpToTraceOrder : Obligations.TimerServicesCommuteUpToTraceOrder := by
  intro s horder hpovf hmcmp
  refine ⟨_, _, runOps_svcPovf_svcMcmp horder hpovf hmcmp, runOps_svcMcmp_svcPovf horder hpovf hmcmp,
    State.timerServices_commute s, State.timerServices_trace_perm s, ?_⟩
  rw [State.serviceMatch_eq, State.serviceOverflow_eq]
  simp [State.quiescent]

end Sys2Proof.Machine
end
